-- ==== Sys2Proof/Word.lean ====
section
/-!
DEFINITION. The word types of the two blocks. Bit 0 is the least significant bit of every word and all words are
unsigned (00_scope.md R6).
-/

namespace Sys2Proof

/-- A byte: a received MIDI byte, a stored data byte, a divisor byte, a byte on the data lines (R6, R26, R27). -/
abbrev Byte := BitVec 8

/-- The three timer channels that exist, 0 to 2; channel id 3 has no entry (10_state.md R20). -/
abbrev TimerCh := Fin 3

end Sys2Proof
end

