-- ==== Sys2Proof/Config.lean ====
section
/-!
DEFINITION. The implementation parameters of 00_scope.md R4. Every operation of the model takes them as one argument of
type `Params`, up to `decodeWith`, `execWith` and `stepWith`; the host's names `decode`, `exec` and `step` are these at
`Config.params`, where a parameter the spec leaves OPEN is an opaque constant (no proof can see its value) and a
parameter with a default stands at its default (entries 5, 6, 7).
-/

namespace Sys2Proof

/-- The two legal values of `RS_MODE` (R4, 41_midi_data_bytes.md R145, D7). -/
inductive RsMode where
  /-- Back to "awaiting first data byte" of the same kind: running status is accepted. -/
  | running
  /-- Back to `WaitingForStatus`. -/
  | strict
deriving DecidableEq, Repr, Inhabited

/-- The parameters of R4. `ComputeFrequency` (R212) is given by its parts: the two deadband limits,
the floor, the ceiling and one arbitrary function for each side of the deadband (entry 7). -/
structure Params where
  /-- `RS_MODE`: the state after a channel-voice message completes (R145). -/
  rsMode : RsMode
  /-- `EVCNT_W` less 1, so that the width of the event counter is positive (R4, R15). -/
  evcntWPred : Nat
  /-- `T_SETTLE` less 1, so that `T_SETTLE` is at least 1 (R4, R191). -/
  settleExtra : Nat
  /-- `F_MASTER` less 1, so that `F_MASTER` is positive (R4, R195). -/
  fMasterPred : Nat
  /-- `MODE_BITS`: control-word bits 3 to 1 (R74). -/
  modeBits : BitVec 3
  /-- `BCD_BIT`: control-word bit 0 (R74). -/
  bcdBit : BitVec 1
  /-- `ADDR_CTRL`: the address of the chip's control register (R40). -/
  addrCtrl : BitVec 2
  /-- `ADDR_CNT(c)`: the address of counter `c`'s data register (R40). -/
  addrCnt : TimerCh → BitVec 2
  /-- `VOICE_CHANNEL`: the timer channel of the single voice (R218). -/
  voiceChannel : TimerCh
  /-- `NoteFreq`: key number to base frequency (R217). -/
  noteFreq : BitVec 7 → Nat
  /-- `DIV_SILENT`: the divisor defined as silent (R221). -/
  divSilent : BitVec 16
  /-- `F_QUIESCENT`: the quiescent frequency (R210, R211). -/
  fQuiescent : Nat
  /-- `GLIDE_EN`: whether the glide policy is present (R220). -/
  glideEn : Bool
  /-- The deadband reaches from minus this value to `deadHigh`, so bend 0 is inside it (R212 (b)). -/
  deadLow : Nat
  /-- The upper limit of the deadband (R212 (b)). -/
  deadHigh : Nat
  /-- The minimum floor (R212 (c)). -/
  freqFloor : Nat
  /-- The maximum ceiling (R212 (c)). -/
  freqCeiling : Nat
  /-- The mapping below the deadband, before it is clamped (R212). -/
  bendBelow : Nat → Int → Nat
  /-- The mapping above the deadband, before it is clamped (R212). -/
  bendAbove : Nat → Int → Nat

/-- `EVCNT_W`, the width of the event counter, positive (R4, R15, R163). -/
abbrev Params.evcntW (p : Params) : Nat := p.evcntWPred + 1

/-- `T_SETTLE`, in cycles of `clk`, at least 1 (R4, R191). -/
abbrev Params.tSettle (p : Params) : Nat := p.settleExtra + 1

/-- `F_MASTER`, positive (R4, R195). -/
abbrev Params.fMaster (p : Params) : Nat := p.fMasterPred + 1

/-- `RS_MODE` is OPEN: no value a proof may rely on (D7; entry 5). -/
opaque Config.rsMode : RsMode
/-- `T_SETTLE` - 1 is OPEN (D24; entry 5). -/
opaque Config.settleExtra : Nat
/-- `F_MASTER` - 1 is OPEN (D25; entry 5). -/
opaque Config.fMasterPred : Nat
/-- `NoteFreq` is OPEN (D30; entry 5). -/
opaque Config.noteFreq : BitVec 7 → Nat
/-- `DIV_SILENT` is OPEN (D30; entry 5). -/
opaque Config.divSilent : BitVec 16
/-- `F_QUIESCENT` is OPEN (D30; entry 5). -/
opaque Config.fQuiescent : Nat
/-- `GLIDE_EN` is OPEN (D30; entry 5). -/
opaque Config.glideEn : Bool
/-- The lower deadband limit is OPEN (R212; entry 7). -/
opaque Config.deadLow : Nat
/-- The upper deadband limit is OPEN (R212; entry 7). -/
opaque Config.deadHigh : Nat
/-- The floor is OPEN (R212; entry 7). -/
opaque Config.freqFloor : Nat
/-- The ceiling is OPEN (R212; entry 7). -/
opaque Config.freqCeiling : Nat
/-- The mapping below the deadband is OPEN (R212; entry 7). -/
opaque Config.bendBelow : Nat → Int → Nat
/-- The mapping above the deadband is OPEN (R212; entry 7). -/
opaque Config.bendAbove : Nat → Int → Nat

/-! The free values on the payload lines of an output port while its valid line is 0 (10_state.md R18, R19, R26; D33),
each a function of the number of the step (entry 3). -/

/-- `out_code` while `out_valid = 0`. -/
opaque Config.idleOutCode : Nat → BitVec 2
/-- `ev_kind` while `ev_valid = 0`. -/
opaque Config.idleEvKind : Nat → BitVec 5
/-- `ev_channel` while `ev_valid = 0`. -/
opaque Config.idleEvChannel : Nat → BitVec 4
/-- `ev_data1` while `ev_valid = 0`. -/
opaque Config.idleEvData1 : Nat → Byte
/-- `ev_data2` while `ev_valid = 0`. -/
opaque Config.idleEvData2 : Nat → Byte
/-- `ev_registered` while `ev_valid = 0`. -/
opaque Config.idleEvRegistered : Nat → Bool
/-- `reg_status` while `reg_status_valid = 0`. -/
opaque Config.idleRegStatus : Nat → BitVec 2

/-- The parameters the machine runs with. The defaults are the spec's: `EVCNT_W = 32` (D11),
`VOICE_CHANNEL = 0` (D30), and, taken by it from general knowledge of the 8253/8254 family, `MODE_BITS = 0b011`,
`BCD_BIT = 0` (D23), `ADDR_CTRL = 3`, `ADDR_CNT(c) = c` (D22); PRESUMED, entry 6. -/
def Config.params : Params where
  rsMode := Config.rsMode
  evcntWPred := 31
  settleExtra := Config.settleExtra
  fMasterPred := Config.fMasterPred
  modeBits := 0b011#3
  bcdBit := 0#1
  addrCtrl := 3#2
  addrCnt := fun
    | 0 => 0#2
    | 1 => 1#2
    | 2 => 2#2
  voiceChannel := 0
  noteFreq := Config.noteFreq
  divSilent := Config.divSilent
  fQuiescent := Config.fQuiescent
  glideEn := Config.glideEn
  deadLow := Config.deadLow
  deadHigh := Config.deadHigh
  freqFloor := Config.freqFloor
  freqCeiling := Config.freqCeiling
  bendBelow := Config.bendBelow
  bendAbove := Config.bendAbove

end Sys2Proof
end

