-- ==== Sys2Proof/Syntax.lean ====
section
/-!
DEFINITION. Kinds, instructions and the words they travel in. The "instructions" are the received bytes, the
registration and timer commands, the control word the timer programmer emits, and reset (30_encoding.md,
spec/opcode_table.json: one constructor of `Instr` for each row).
-/

namespace Sys2Proof

/-- The seven channel-voice message kinds (30_encoding.md R67). -/
inductive CvKind where
  | noteOff
  | noteOn
  | polyAftertouch
  | controlChange
  | programChange
  | channelAftertouch
  | pitchBend
deriving DecidableEq, Repr

/-- An event kind: "one of the real-time, system-common, or channel-voice message kinds" (R66). The system-common and
real-time kinds are numbered by the low three bits of their byte. -/
inductive EvKind where
  | cv (k : CvKind)
  | sc (n : BitVec 3)
  | rt (n : BitVec 3)
deriving DecidableEq, Repr

/-- One constructor for each row of spec/opcode_table.json, in its order. Operands are the fields of the row; a bit the
row fixes is no operand. -/
inductive Instr where
  /-- NOTE_OFF status byte 0x8c (R120). -/
  | noteOff (ch : BitVec 4)
  /-- NOTE_ON status byte 0x9c (R121). -/
  | noteOn (ch : BitVec 4)
  /-- POLY_AFTERTOUCH status byte 0xAc (R122). -/
  | polyAftertouch (ch : BitVec 4)
  /-- CONTROL_CHANGE status byte 0xBc (R123). -/
  | controlChange (ch : BitVec 4)
  /-- PROGRAM_CHANGE status byte 0xCc (R124). -/
  | programChange (ch : BitVec 4)
  /-- CHANNEL_AFTERTOUCH status byte 0xDc (R125). -/
  | channelAftertouch (ch : BitVec 4)
  /-- PITCH_BEND status byte 0xEc (R126). -/
  | pitchBend (ch : BitVec 4)
  /-- SC_F0 (R101). -/
  | scF0
  /-- SC_F1 (R102). -/
  | scF1
  /-- SC_F2 (R103). -/
  | scF2
  /-- SC_F3 (R104). -/
  | scF3
  /-- SC_F4 (R105). -/
  | scF4
  /-- SC_F5 (R106). -/
  | scF5
  /-- SC_F6 (R107). -/
  | scF6
  /-- SC_F7 (R108). -/
  | scF7
  /-- RT_F8 (R111). -/
  | rtF8
  /-- RT_F9 (R112). -/
  | rtF9
  /-- RT_FA (R113). -/
  | rtFA
  /-- RT_FB (R114). -/
  | rtFB
  /-- RT_FC (R115). -/
  | rtFC
  /-- RT_FD (R116). -/
  | rtFD
  /-- RT_FE (R117). -/
  | rtFE
  /-- RT_FF (R118). -/
  | rtFF
  /-- DATA byte with payload `v` (R64, R151). -/
  | data (v : BitVec 7)
  /-- REGISTER: a handler for an in-range kind code (R165). -/
  | register (kind : BitVec 5)
  /-- UNREGISTER: the default handler for an in-range kind code (R167). -/
  | unregister (kind : BitVec 5)
  /-- REGISTER_BAD_KIND_7: kind code 7, enable bit either way (R166). -/
  | registerBadKind7 (en : BitVec 1)
  /-- REGISTER_BAD_KIND_24_31: kind code 24 + `low`, enable bit either way (R166). -/
  | registerBadKind24To31 (en : BitVec 1) (low : BitVec 3)
  /-- WRITE_CHANNEL for channel 0 to 2 (R185). -/
  | writeChannel (c : BitVec 2) (lsb : Byte) (msb : Byte)
  /-- WRITE_CHANNEL_INVALID: channel id 3 (R180). -/
  | writeChannelInvalid (lsb : Byte) (msb : Byte)
  /-- CONTROL_WORD: the byte emitted to the chip's control register (R74). -/
  | controlWord (c : BitVec 2) (am : BitVec 2) (mode : BitVec 3) (bcd : BitVec 1)
  /-- RESET (R270). -/
  | reset
deriving DecidableEq, Repr

/-- A word together with the port it travels on: the formats of 30_encoding.md are on different ports and overlap in
their bits (R26, R27, R71, R72, R74). -/
inductive Frame where
  /-- A received byte on `rx_byte` (R60). -/
  | rx (b : Byte)
  /-- A registration command, 6 bits `reg_enable, reg_kind` (R71). -/
  | reg (w : BitVec 6)
  /-- A timer command, 18 bits `cmd_channel, cmd_lsb, cmd_msb` (R72). -/
  | cmd (w : BitVec 18)
  /-- A control word on its way to the chip's control register (R74; entry 8). -/
  | bus (b : Byte)
  /-- `rst = 1` (R270). -/
  | rst
deriving DecidableEq, Repr

end Sys2Proof
end

