-- ==== Sys2Proof/WellFormed.lean ====
section
/-!
DEFINITION. Which instruction terms stand for a word of the opcode table (30_encoding.md R71, R72, R74, R78).
-/

namespace Sys2Proof

/-- A kind code that names a kind: 0 to 6 or 8 to 23 (R66, R71). -/
def kindInRange (k : BitVec 5) : Bool := k.toNat < 24 && k.toNat != 7

/-- REGISTER and UNREGISTER carry an in-range kind (R71), WRITE_CHANNEL a channel 0 to 2 (R72), CONTROL_WORD is one of
the words that can appear on the bus: channel 0 to 2, access mode 1 to 3, the fixed bits as configured (R74, R78). Every
other term is well formed. -/
def Instr.wfWith (p : Params) : Instr → Bool
  | .register k => kindInRange k
  | .unregister k => kindInRange k
  | .writeChannel c _ _ => c != 3#2
  | .controlWord c am mode bcd =>
      c != 3#2 && am != 0#2 && mode == p.modeBits && bcd == p.bcdBit
  | .noteOff _ | .noteOn _ | .polyAftertouch _ | .controlChange _ | .programChange _ | .channelAftertouch _
  | .pitchBend _ | .scF0 | .scF1 | .scF2 | .scF3 | .scF4 | .scF5 | .scF6 | .scF7 | .rtF8 | .rtF9 | .rtFA | .rtFB
  | .rtFC | .rtFD | .rtFE | .rtFF | .data _ | .registerBadKind7 _ | .registerBadKind24To31 _ _
  | .writeChannelInvalid _ _ | .reset => true

/-- Well-formedness at the machine's parameters. -/
def Instr.wf (i : Instr) : Bool := i.wfWith Config.params

end Sys2Proof
end

