-- ==== Sys2Proof/Decode.lean ====
section
/-!
DEFINITION. Decoding, written from the formats of 30_encoding.md (R60 to R64, R67, R71, R72, R74), total on every word
of every port and refusing by name; and the encoder, written from the same tables.
-/

namespace Sys2Proof

/-- Why a word stands for no instruction. -/
inductive DecodeError where
  /-- The default case of the kind selection (40_midi_status_bytes.md R98): a byte of class 3 whose high nibble is none
  of 0x8 to 0xE. No byte reaches it (R69). -/
  | unrecognizedHighNibble (b : Byte)
  /-- A control word for counter channel 3, which is never emitted (R78 (c)). -/
  | controlWordChannel3 (b : Byte)
  /-- A control word with access mode 0, "latch", which is never emitted (R78 (b)). -/
  | controlWordLatch (b : Byte)
  /-- A control word whose bits 3 to 0 are not the configured fixed mode bits (R74). -/
  | controlWordFixedBits (b : Byte)
deriving DecidableEq, Repr

/-- Class 1, format RT: the low three bits select one of the eight real-time kinds (R61). -/
def decodeRealTime (r : BitVec 3) : Instr :=
  match r.getLsbD 2, r.getLsbD 1, r.getLsbD 0 with
  | false, false, false => .rtF8
  | false, false, true => .rtF9
  | false, true, false => .rtFA
  | false, true, true => .rtFB
  | true, false, false => .rtFC
  | true, false, true => .rtFD
  | true, true, false => .rtFE
  | true, true, true => .rtFF

/-- Class 2, format SC: the low three bits select one of the eight system-common kinds (R62). -/
def decodeSystemCommon (s : BitVec 3) : Instr :=
  match s.getLsbD 2, s.getLsbD 1, s.getLsbD 0 with
  | false, false, false => .scF0
  | false, false, true => .scF1
  | false, true, false => .scF2
  | false, true, true => .scF3
  | true, false, false => .scF4
  | true, false, true => .scF5
  | true, true, false => .scF6
  | true, true, true => .scF7

/-- Class 3, format CV: bits 6 to 4 select the kind, bits 3 to 0 are the channel (R63, R67); the last case is the
unreachable error arm (R98). -/
def decodeChannelVoice (b : Byte) : Except DecodeError Instr :=
  let ch := b.extractLsb' 0 4
  match b.getLsbD 6, b.getLsbD 5, b.getLsbD 4 with
  | false, false, false => .ok (.noteOff ch)
  | false, false, true => .ok (.noteOn ch)
  | false, true, false => .ok (.polyAftertouch ch)
  | false, true, true => .ok (.controlChange ch)
  | true, false, false => .ok (.programChange ch)
  | true, false, true => .ok (.channelAftertouch ch)
  | true, true, false => .ok (.pitchBend ch)
  | true, true, true => .error (.unrecognizedHighNibble b)

/-- A received byte, classified in the strict priority order of R60. -/
def decodeRx (b : Byte) : Except DecodeError Instr :=
  if b.extractLsb' 3 5 = 0b11111#5 then .ok (decodeRealTime (b.extractLsb' 0 3))
  else if b.extractLsb' 4 4 = 0b1111#4 then .ok (decodeSystemCommon (b.extractLsb' 0 3))
  else if b.getLsbD 7 then decodeChannelVoice b
  else .ok (.data (b.extractLsb' 0 7))

/-- A registration command: bit 5 is `reg_enable`, bits 4 to 0 are `reg_kind` (R71). -/
def decodeReg (w : BitVec 6) : Instr :=
  let en := w.extractLsb' 5 1
  let kind := w.extractLsb' 0 5
  if kind = 7#5 then .registerBadKind7 en
  else if kind.extractLsb' 3 2 = 0b11#2 then .registerBadKind24To31 en (kind.extractLsb' 0 3)
  else if en = 1#1 then .register kind
  else .unregister kind

/-- A timer command: bits 17 to 16 are `cmd_channel`, 15 to 8 `cmd_lsb`, 7 to 0 `cmd_msb` (R72). -/
def decodeCmd (w : BitVec 18) : Instr :=
  let c := w.extractLsb' 16 2
  let l := w.extractLsb' 8 8
  let m := w.extractLsb' 0 8
  if c = 3#2 then .writeChannelInvalid l m else .writeChannel c l m

/-- A control word: bits 7 to 6 channel, 5 to 4 access mode, 3 to 1 mode bits, 0 BCD bit; a byte that is never emitted
is refused by name (R74, R78). -/
def decodeBus (p : Params) (b : Byte) : Except DecodeError Instr :=
  let c := b.extractLsb' 6 2
  let am := b.extractLsb' 4 2
  let mode := b.extractLsb' 1 3
  let bcd := b.extractLsb' 0 1
  if c = 3#2 then .error (.controlWordChannel3 b)
  else if am = 0#2 then .error (.controlWordLatch b)
  else if mode = p.modeBits ∧ bcd = p.bcdBit then .ok (.controlWord c am mode bcd)
  else .error (.controlWordFixedBits b)

/-- The instruction a word on a port stands for; of the parameters only the fixed bits of a control word matter. -/
def decodeWith (p : Params) : Frame → Except DecodeError Instr
  | .rx b => decodeRx b
  | .reg w => .ok (decodeReg w)
  | .cmd w => .ok (decodeCmd w)
  | .bus b => decodeBus p b
  | .rst => .ok .reset

/-- The decoder at the machine's parameters. -/
def decode (f : Frame) : Except DecodeError Instr := decodeWith Config.params f

/-- The word of an instruction and the port it travels on, from the tables of 30_encoding.md (R60, R66, R67, R71, R72,
R74) and the patterns of spec/opcode_table.json. -/
def encode : Instr → Frame
  | .noteOff ch => .rx (0x8#4 ++ ch)
  | .noteOn ch => .rx (0x9#4 ++ ch)
  | .polyAftertouch ch => .rx (0xA#4 ++ ch)
  | .controlChange ch => .rx (0xB#4 ++ ch)
  | .programChange ch => .rx (0xC#4 ++ ch)
  | .channelAftertouch ch => .rx (0xD#4 ++ ch)
  | .pitchBend ch => .rx (0xE#4 ++ ch)
  | .scF0 => .rx 0xF0#8
  | .scF1 => .rx 0xF1#8
  | .scF2 => .rx 0xF2#8
  | .scF3 => .rx 0xF3#8
  | .scF4 => .rx 0xF4#8
  | .scF5 => .rx 0xF5#8
  | .scF6 => .rx 0xF6#8
  | .scF7 => .rx 0xF7#8
  | .rtF8 => .rx 0xF8#8
  | .rtF9 => .rx 0xF9#8
  | .rtFA => .rx 0xFA#8
  | .rtFB => .rx 0xFB#8
  | .rtFC => .rx 0xFC#8
  | .rtFD => .rx 0xFD#8
  | .rtFE => .rx 0xFE#8
  | .rtFF => .rx 0xFF#8
  | .data v => .rx (0#1 ++ v)
  | .register k => .reg (1#1 ++ k)
  | .unregister k => .reg (0#1 ++ k)
  | .registerBadKind7 en => .reg (en ++ 7#5)
  | .registerBadKind24To31 en low => .reg (en ++ (0b11#2 ++ low))
  | .writeChannel c l m => .cmd (c ++ (l ++ m))
  | .writeChannelInvalid l m => .cmd (3#2 ++ (l ++ m))
  | .controlWord c am mode bcd => .bus (c ++ (am ++ (mode ++ bcd)))
  | .reset => .rst

/-- The port and word that a table row's bits stand for, chosen by the number of bits alone, because the ports' words
overlap: 8 bits are a received byte, 6 a registration command, 18 (or 24, in whole bytes) a timer command, 1 the reset
line (entry 9). -/
def tableFrame (nbits w : Nat) : Option Frame :=
  if nbits = 8 ∧ w < 2 ^ 8 then some (.rx (BitVec.ofNat 8 w))
  else if nbits = 6 ∧ w < 2 ^ 6 then some (.reg (BitVec.ofNat 6 w))
  else if (nbits = 18 ∨ nbits = 24) ∧ w < 2 ^ 18 then some (.cmd (BitVec.ofNat 18 w))
  else if nbits = 1 ∧ w = 1 then some .rst
  else none

/-- The instruction the decoder reads from a word of spec/opcode_table.json. -/
def decodeTableWord (nbits w : Nat) : Option Instr :=
  match tableFrame nbits w with
  | some f =>
    match decode f with
    | .ok i => some i
    | .error _ => none
  | none => none

end Sys2Proof
end

