-- ==== Sys2Proof/Machine/State.lean ====
section
/-!
DEFINITION. The state of the two blocks, of the companion between them, and of the schedule of inputs: plain data. Every
field of 10_state.md R10 to R27 and 44_voice_glue.md R210, under the spec's name, and the reset state of R33.
-/

namespace Sys2Proof.Machine

/-- `PSTATE` (R11): 16 values, the two unreachable `AwaitSecond` values and `Error` among them (R150, R98). -/
inductive PState where
  | waitingForStatus
  | awaitFirst (k : CvKind)
  | awaitSecond (k : CvKind)
  | error
deriving DecidableEq, Repr

/-- The outcome and status codes, one space shared by `out_code` and `reg_status` (30_encoding.md R70). -/
inductive OutCode where
  /-- `OUT_NONE`; for `register`, `OK`. -/
  | outNone
  /-- `OUT_DISPATCHED`. -/
  | outDispatched
  /-- `E_MIDI_BAD_CHANNEL_STATE` (R240). -/
  | eMidiBadChannelState
  /-- `E_MIDI_BAD_EVENT_HANDLER` (R240). -/
  | eMidiBadEventHandler
deriving DecidableEq, Repr

/-- What a dispatch presents on the event port (R19, R160). -/
structure Event where
  kind : EvKind
  channel : BitVec 4
  data1 : Byte
  data2 : Byte
  /-- `ev_registered`: `HREG[kind]` as the step read it. -/
  registered : Bool
deriving DecidableEq, Repr

/-- A pin operation of the timer chip bus (20_memory.md R44, 43_timer_programmer.md R184). -/
inductive PinOp where
  | csLow
  | csHigh
  | setAddr (a : BitVec 2)
  | setData (v : Byte)
  | wrLow
  | wrHigh
  /-- Changes no pin and lasts at least `T_SETTLE` cycles. -/
  | settle
deriving DecidableEq, Repr

/-- The pin registers (R22). -/
structure Pins where
  /-- `CSN`, chip-select, active low. -/
  csn : Bool
  /-- `WRN`, write-strobe, active low. -/
  wrn : Bool
  /-- `A`, the two address lines. -/
  a : BitVec 2
  /-- `D`, the data lines. -/
  d : Byte
deriving DecidableEq, Repr

/-- The cache of one timer channel: `LSBC[c]`, `MSBC[c]` (R20) and their valid bits `LSBV[c]`, `MSBV[c]` (R21). -/
structure CacheEntry where
  lsbc : Byte
  msbc : Byte
  lsbv : Bool
  msbv : Bool
deriving DecidableEq, Repr

/-- The dirty cache: one entry for each of the three channels, none for channel id 3 (R20). -/
structure Cache where
  c0 : CacheEntry
  c1 : CacheEntry
  c2 : CacheEntry
deriving DecidableEq, Repr

/-- The pending latch: the accepted command and its dirty conditions (R23). -/
structure Pending where
  c : TimerCh
  l : Byte
  m : Byte
  dl : Bool
  dm : Bool
deriving DecidableEq, Repr

/-- `SEQ`, the bus sequencer (R23). `busy` holds the pending latch, the pin operations that remain to be performed and
the settle timer (60_exceptions.md R253 (b)): the clock edges to let pass before the next pin operation. -/
inductive Seq where
  | idle
  | busy (cmd : Pending) (ops : List PinOp) (wait : Nat)
deriving DecidableEq, Repr

/-- A registered output port. -/
inductive Port (α : Type) where
  /-- As reset leaves it: every line, valid and payload, is 0 (D33). -/
  | cleared
  /-- The valid line is 0 and the payload lines hold a free value (entry 3). -/
  | quiet
  /-- The valid line is 1 and the payload lines hold `a`, for one cycle (R18, R19). -/
  | reports (a : α)
deriving DecidableEq, Repr

/-- The companion's `VoiceState` (44_voice_glue.md R210). -/
structure Voice where
  notesHeld : Nat
  baseFrequency : Nat
  /-- Signed, 0 at the centre, -8192 to 8191. -/
  pitchBendValue : Int
  targetFrequency : Nat
  actualFrequency : Nat
deriving DecidableEq, Repr

/-- The input ports of both blocks at one rising edge of `clk` (R26, R27), where a valid line that is 0 is `none`; and,
the model's own, whether the bus sequencer waits on it. -/
structure Edge where
  /-- `rst`. -/
  rst : Bool
  /-- `rx_valid` with `rx_byte`. -/
  rx : Option Byte
  /-- `reg_valid` with `reg_enable, reg_kind`. -/
  reg : Option (BitVec 6)
  /-- `cmd_valid` with `cmd_channel, cmd_lsb, cmd_msb`. -/
  cmd : Option (BitVec 18)
  /-- The model's own: on this edge the bus sequencer waits longer than it must. Every delay is a lower bound
  (20_memory.md R44, 70_reset_and_hazards.md R290), so the sequencer may wait at any edge (entry 12). -/
  hold : Bool
deriving DecidableEq, Repr

/-- What the outside offers the next step: a call at the function level (R5), a clock edge at the cycle level (R26,
R27), or a turn of the companion (R217, R220). Entries 1, 2 and 13. -/
inductive Stimulus where
  /-- One call that runs to completion: `receive`, `register`, `writeChannel`, reset, or a control word. -/
  | call (f : Frame)
  /-- One rising edge of `clk` with these port inputs. -/
  | clock (e : Edge)
  /-- The event sink acts on the event presented on the event port. -/
  | glue
  /-- The companion's control-loop tick. -/
  | tick
deriving DecidableEq, Repr

/-- The whole state. -/
structure State where
  /-- `PSTATE` (R11). -/
  pstate : PState
  /-- `STATUS` (R12). -/
  status : Byte
  /-- `DATA1` (R13). -/
  data1 : Byte
  /-- `DATA2` (R14). -/
  data2 : Byte
  /-- `EVCNT` (R15), a number below `2^EVCNT_W`: its width is a parameter (entry 17). -/
  evcnt : Nat
  /-- `HREG` (R16): bit `k` for kind code `k`; bit 7 is hardwired to 0. -/
  hreg : BitVec 24
  /-- `LSBC`, `MSBC`, `LSBV`, `MSBV` (R20, R21). -/
  cache : Cache
  /-- `CSN`, `WRN`, `A`, `D` (R22). -/
  pins : Pins
  /-- `SEQ` (R23). -/
  seq : Seq
  /-- `out_valid` with `out_code` (R18). -/
  outPort : Port OutCode
  /-- `ev_valid` with the event (R19). -/
  evPort : Port Event
  /-- `reg_status_valid` with `reg_status` (R26). -/
  regPort : Port OutCode
  /-- The model's own: the pin operations performed in the last step, the result of R185 (entry 4). -/
  pinOps : List PinOp
  /-- The companion's record (R210). -/
  voice : Voice
  /-- The model's own: the stimuli offered and not yet taken, first one first (entry 1). -/
  inputs : List Stimulus
  /-- The model's own: the number of steps taken, to which the free values of idle output lines are applied
  (entry 3). -/
  cycle : Nat
deriving DecidableEq, Repr

/-- The reasons for which the system halts. -/
inductive Fault where
  /-- `InitializationFailure` (R240): raised by bring-up, outside both blocks (R243), when a setup step reports nonzero
  status; no step of this model raises it. Safe: bring-up is out of scope. -/
  | initializationFailure
deriving DecidableEq, Repr

/-- The reasons for which the model gives no next state. -/
inductive Refusal where
  /-- An instruction that has no meaning yet; no arm of `exec` answers it. Safe: nothing is claimed. -/
  | notModelled (mnemonic : String)
  /-- Raised by the companion's `Reprogram` for frequency 0: `Divisor(0)` has no result and "a model refuses the call"
  (R196 (a), U8). Safe: no claim can rest on a divisor the spec does not give. -/
  | divisorOfZero
  /-- Raised by `step` when the schedule names a byte as a control word that R78 says is never emitted. Safe: such a
  byte is no word of the table. -/
  | controlWordNeverEmitted (b : Byte)
deriving DecidableEq, Repr

/-- What a meaning answers. -/
abbrev Result := Host.Outcome State Fault Refusal

/-- A cache entry after reset (R33). -/
def CacheEntry.reset : CacheEntry := { lsbc := 0#8, msbc := 0#8, lsbv := false, msbv := false }

/-- The initial `VoiceState` (R211). -/
def Voice.reset (p : Params) : Voice where
  notesHeld := 0
  baseFrequency := p.fQuiescent
  pitchBendValue := 0
  targetFrequency := p.fQuiescent
  actualFrequency := p.fQuiescent

/-- The state right after reset (R33, R211, D33), with nothing offered yet. -/
def State.resetWith (p : Params) : State where
  pstate := .waitingForStatus
  status := 0x00#8
  data1 := 0x00#8
  data2 := 0x00#8
  evcnt := 0
  hreg := 0#24
  cache := { c0 := .reset, c1 := .reset, c2 := .reset }
  pins := { csn := true, wrn := true, a := 0b00#2, d := 0x00#8 }
  seq := .idle
  outPort := .cleared
  evPort := .cleared
  regPort := .cleared
  pinOps := []
  voice := .reset p
  inputs := []
  cycle := 0

/-- The reset state at the machine's parameters. -/
def State.reset : State := State.resetWith Config.params

end Sys2Proof.Machine
end

