-- ==== Sys2Proof/Machine/Operands.lean ====
section
/-!
DEFINITION. Operand forms: the numeric codes of kinds and states (30_encoding.md R66, R68), how each operand is taken
from the bits (R73), the fields of a timer command (R72), the divisor's two bytes (43_timer_programmer.md R195) and the
companion's pitch-bend value (44_voice_glue.md R219).
-/

namespace Sys2Proof.Machine

/-- The code of a channel-voice kind, 0 to 6: the high nibble of its status byte less 8 (R66, R67). -/
def cvCode : CvKind → BitVec 3
  | .noteOff => 0#3
  | .noteOn => 1#3
  | .polyAftertouch => 2#3
  | .controlChange => 3#3
  | .programChange => 4#3
  | .channelAftertouch => 5#3
  | .pitchBend => 6#3

/-- The channel-voice kind with a given code; 7 names none (R66). -/
def cvOfCode (c : BitVec 3) : Option CvKind :=
  match c.getLsbD 2, c.getLsbD 1, c.getLsbD 0 with
  | false, false, false => some .noteOff
  | false, false, true => some .noteOn
  | false, true, false => some .polyAftertouch
  | false, true, true => some .controlChange
  | true, false, false => some .programChange
  | true, false, true => some .channelAftertouch
  | true, true, false => some .pitchBend
  | true, true, true => none

/-- The 5-bit event kind code: 0 to 6 channel-voice, 8 to 15 system-common, 16 to 23 real-time (R66). -/
def kindCode : EvKind → BitVec 5
  | .cv k => 0b00#2 ++ cvCode k
  | .sc n => 0b01#2 ++ n
  | .rt n => 0b10#2 ++ n

/-- The event kind with a given code; 7 and 24 to 31 name none and are out of range for `register` (R66, R71). -/
def kindOfCode (c : BitVec 5) : Option EvKind :=
  match c.getLsbD 4, c.getLsbD 3 with
  | false, false => (cvOfCode (c.extractLsb' 0 3)).map .cv
  | false, true => some (.sc (c.extractLsb' 0 3))
  | true, false => some (.rt (c.extractLsb' 0 3))
  | true, true => none

/-- The 4-bit `PSTATE` code (R68). -/
def pstateCode : PState → BitVec 4
  | .waitingForStatus => 0#4
  | .awaitFirst k => 1#4 + 2#4 * (cvCode k).setWidth 4
  | .awaitSecond k => 2#4 + 2#4 * (cvCode k).setWidth 4
  | .error => 15#4

/-- Whether a kind has one data byte; the other five have two (R67). -/
def oneDataByte : CvKind → Bool
  | .programChange | .channelAftertouch => true
  | .noteOff | .noteOn | .polyAftertouch | .controlChange | .pitchBend => false

/-- The status byte of a kind on a channel: top bit, kind, channel (R63, R67). -/
def statusByte (k : CvKind) (ch : BitVec 4) : Byte := 1#1 ++ (cvCode k ++ ch)

/-- The channel recorded in a status byte, `STATUS[3:0]` (R73 (a)). -/
def channelOf (status : Byte) : BitVec 4 := status.extractLsb' 0 4

/-- A 7-bit payload as the data byte that carries it: zero-extended to 8 bits (R73 (c)). -/
def dataOf (v : BitVec 7) : Byte := 0#1 ++ v

/-- The channel a 2-bit channel id names; 3 is reserved and names none (R72). -/
def timerChannel (c : BitVec 2) : Option TimerCh :=
  match c.getLsbD 1, c.getLsbD 0 with
  | false, false => some 0
  | false, true => some 1
  | true, false => some 2
  | true, true => none

/-- The 2-bit channel id of a timer channel (R72). -/
def channelId : TimerCh → BitVec 2
  | 0 => 0#2
  | 1 => 1#2
  | 2 => 2#2

/-- `cmd_channel`, bits 17 to 16 (R72). -/
def cmdChannel (w : BitVec 18) : BitVec 2 := w.extractLsb' 16 2
/-- `cmd_lsb`, bits 15 to 8 (R72). -/
def cmdLsb (w : BitVec 18) : Byte := w.extractLsb' 8 8
/-- `cmd_msb`, bits 7 to 0 (R72). -/
def cmdMsb (w : BitVec 18) : Byte := w.extractLsb' 0 8

/-- The 18-bit command `writeChannel(c, l, m)` (R72). -/
def cmdWord (c : TimerCh) (l m : Byte) : BitVec 18 := channelId c ++ (l ++ m)

/-- `Divisor(f) = F_MASTER div f`, no result for `f = 0` (R195, R196 (a)). -/
def divisor (p : Params) (f : Nat) : Option Nat :=
  if f = 0 then none else some (p.fMaster / f)

/-- `lsb = divisor & 0xFF` (R195). -/
def divisorLsb (d : Nat) : Byte := BitVec.ofNat 8 (d &&& 0xFF)
/-- `msb = (divisor >> 8) & 0xFF` (R195). -/
def divisorMsb (d : Nat) : Byte := BitVec.ofNat 8 ((d >>> 8) &&& 0xFF)

/-- `Bend14(d1, d2)`: data byte one is the low 7 bits, data byte two the high 7 bits (R219; PRESUMED by the spec from
general knowledge, GK7; entry 15). -/
def bend14 (d1 d2 : Byte) : BitVec 14 := d2.extractLsb' 0 7 ++ d1.extractLsb' 0 7

/-- The normalized pitch-bend value: the raw value less 8192 (R210, R219). -/
def bendValue (d1 d2 : Byte) : Int := (bend14 d1 d2).toNat - 8192

end Sys2Proof.Machine
end

