-- ==== Sys2Proof/Machine/Flags.lean ====
section
/-!
DEFINITION. What acts as flags (10_state.md R30): the outcome and status codes (30_encoding.md R70), the dirty
conditions and the access mode (43_timer_programmer.md R181, R182), `busy` and `cmd_ready`, and the views of the state
on the output ports (10_state.md R26, R27).
-/

namespace Sys2Proof.Machine

/-- The 2-bit outcome and status code (R70). -/
def outCodeBits : OutCode → BitVec 2
  | .outNone => 0#2
  | .outDispatched => 1#2
  | .eMidiBadChannelState => 2#2
  | .eMidiBadEventHandler => 3#2

/-- `dl`: the LSB's cache entry is invalid or differs from the requested byte (R181). -/
def dirtyLsb (e : CacheEntry) (l : Byte) : Bool := !e.lsbv || e.lsbc != l

/-- `dm`: the MSB's cache entry is invalid or differs from the requested byte (R181). -/
def dirtyMsb (e : CacheEntry) (m : Byte) : Bool := !e.msbv || e.msbc != m

/-- `am = (dm << 1) | dl` (R182). -/
def accessMode (dl dm : Bool) : BitVec 2 := BitVec.ofBool dm ++ BitVec.ofBool dl

/-- `busy`: `SEQ` is not `Idle` (R27). -/
def State.busy (s : State) : Bool :=
  match s.seq with
  | .idle => false
  | .busy _ _ _ => true

/-- `cmd_ready`: 1 exactly when `SEQ = Idle` (R27, R189). -/
def State.cmdReady (s : State) : Bool := !s.busy

/-- Whether a port's valid line is 1. -/
def Port.valid {α : Type} : Port α → Bool
  | .cleared => false
  | .quiet => false
  | .reports _ => true

/-- What a port reports, if its valid line is 1. -/
def Port.report {α : Type} : Port α → Option α
  | .cleared => none
  | .quiet => none
  | .reports a => some a

/-- A payload line: 0 as reset leaves it, a free value while the valid line is 0 (entry 3), else the line of what is
reported (R18, R19, D33). -/
def Port.line {α β : Type} (x : Port α) (zero free : β) (f : α → β) : β :=
  match x with
  | .cleared => zero
  | .quiet => free
  | .reports a => f a

/-- `out_valid` (R18, R26). -/
def State.outValid (s : State) : Bool := s.outPort.valid
/-- `out_code` (R18, R26). -/
def State.outCode (s : State) : BitVec 2 := s.outPort.line 0#2 (Config.idleOutCode s.cycle) outCodeBits
/-- `ev_valid` (R19, R26). -/
def State.evValid (s : State) : Bool := s.evPort.valid
/-- `ev_kind` (R19, R26). -/
def State.evKind (s : State) : BitVec 5 := s.evPort.line 0#5 (Config.idleEvKind s.cycle) fun e => kindCode e.kind
/-- `ev_channel` (R19, R26). -/
def State.evChannel (s : State) : BitVec 4 := s.evPort.line 0#4 (Config.idleEvChannel s.cycle) Event.channel
/-- `ev_data1` (R19, R26). -/
def State.evData1 (s : State) : Byte := s.evPort.line 0#8 (Config.idleEvData1 s.cycle) Event.data1
/-- `ev_data2` (R19, R26). -/
def State.evData2 (s : State) : Byte := s.evPort.line 0#8 (Config.idleEvData2 s.cycle) Event.data2
/-- `ev_registered` (R19, R26). -/
def State.evRegistered (s : State) : Bool := s.evPort.line false (Config.idleEvRegistered s.cycle) Event.registered
/-- `reg_status_valid` (R26). -/
def State.regStatusValid (s : State) : Bool := s.regPort.valid
/-- `reg_status` (R26). -/
def State.regStatus (s : State) : BitVec 2 := s.regPort.line 0#2 (Config.idleRegStatus s.cycle) outCodeBits
/-- `pstate`, the diagnostic output (R26). -/
def State.pstatePort (s : State) : BitVec 4 := pstateCode s.pstate
/-- `evcnt`, the diagnostic output (R26). -/
def State.evcntPort (s : State) : Nat := s.evcnt

end Sys2Proof.Machine
end

