-- ==== Sys2Proof/Machine/Ops.lean ====
section
/-!
DEFINITION. The named operations that the meanings share: reporting an outcome, raising an error (60_exceptions.md
R247), recording a status byte (40_midi_status_bytes.md R90, R100), dispatching an event (42_dispatch_registration.md
R160), completing a message (41_midi_data_bytes.md R147, R148), the callback table, the pin operations and the bus
write (20_memory.md R44), the dirty cache (43_timer_programmer.md R186).
-/

namespace Sys2Proof.Machine

/-- One result after another: the second runs only from a next state. -/
def andThen (r : Result) (f : State → Result) : Result :=
  match r with
  | .next s => f s
  | .fault e => .fault e
  | .refused e => .refused e

/-- The outputs of a step are presented for one cycle, so the next step begins with none of them (R18, R19, D33). -/
def newCycle (s : State) : State :=
  { s with outPort := .quiet, evPort := .quiet, regPort := .quiet, pinOps := [], cycle := s.cycle + 1 }

/-! ## Outcomes and errors -/

/-- The outcome of a `receive` step that completes no message: `OUT_NONE` and no event (R91, R130). -/
def noMessage (s : State) : State :=
  { s with outPort := .reports .outNone, evPort := .quiet }

/-- The two errors the blocks can raise (R240). -/
inductive Cause where
  /-- `E_MIDI_BAD_CHANNEL_STATE`, reported on `out_code`. -/
  | badChannelState
  /-- `E_MIDI_BAD_EVENT_HANDLER`, reported on `reg_status`. -/
  | badEventHandler
deriving DecidableEq, Repr

/-- `raise E` (R247), the ONE operation that takes an error: the outcome, or status, of the step is the error's code and
no event is dispatched. Nothing is saved, no mode changes and control does not move; the state changes of the raising
rule stand beside it. There is no return from it (R249): `Error` is left by `recordStatus`. -/
def raise (c : Cause) (s : State) : State :=
  match c with
  | .badChannelState => { s with outPort := .reports .eMidiBadChannelState, evPort := .quiet }
  | .badEventHandler => { s with regPort := .reports .eMidiBadEventHandler }

/-- What every status byte but the real-time ones does (R90, R100): the byte is recorded, the stored bytes are cleared,
the state becomes `next`, no message completes. Applied in `Error`, it is the way out of it (R99, R249). -/
def recordStatus (b : Byte) (next : PState) (s : State) : State :=
  noMessage { s with status := b, data1 := 0#8, data2 := 0#8, pstate := next }

/-- The error arm: a byte of class 3 whose high nibble selects no kind (R98). No byte reaches it. -/
def badChannelState (b : Byte) (s : State) : State :=
  raise .badChannelState { s with status := b, data1 := 0#8, data2 := 0#8, pstate := .error }

/-! ## The callback table and dispatch -/

/-- `HREG[kind]` (R16). -/
def registered (s : State) (k : EvKind) : Bool := s.hreg.getLsbD (kindCode k).toNat

/-- `HREG[kind] <- en` (R165). -/
def hregWrite (h : BitVec 24) (k : EvKind) (en : Bool) : BitVec 24 :=
  let bit := 1#24 <<< (kindCode k).toNat
  if en then h ||| bit else h &&& ~~~bit

/-- `Dispatch(kind, ch, d1, d2)` (R160), with the outcome every dispatching step reports (R70): the event is presented,
marked with `HREG[kind]`, and `EVCNT` counts it, whether or not a handler is registered (R162), modulo `2^EVCNT_W` (R163). -/
def dispatch (p : Params) (k : EvKind) (ch : BitVec 4) (d1 d2 : Byte) (s : State) : State :=
  { s with
    evPort := .reports { kind := k, channel := ch, data1 := d1, data2 := d2, registered := registered s k }
    evcnt := (s.evcnt + 1) % 2 ^ p.evcntW
    outPort := .reports .outDispatched }

/-- `NextAfterComplete(k)` (R145). -/
def nextAfterComplete (p : Params) (k : CvKind) : PState :=
  match p.rsMode with
  | .running => .awaitFirst k
  | .strict => .waitingForStatus

/-- Completion of a channel-voice message: dispatch with the recorded channel, then clear the stored bytes and take the
next state (R147, R148). -/
def complete (p : Params) (k : CvKind) (d1 d2 : Byte) (s : State) : State :=
  { dispatch p (.cv k) (channelOf s.status) d1 d2 s with
    data1 := 0#8, data2 := 0#8, pstate := nextAfterComplete p k }

/-- The first data byte of a two-data-byte message is stored (R132). -/
def storeFirst (k : CvKind) (b : Byte) (s : State) : State :=
  noMessage { s with data1 := b, pstate := .awaitSecond k }

/-- `register(k, en)`: writes the slot of a kind in range, status `OK` (R165, R167, R169); raises
`E_MIDI_BAD_EVENT_HANDLER` and leaves the table unchanged for a code that names no kind (R166). -/
def registerSlot (code : BitVec 5) (en : Bool) (s : State) : State :=
  match kindOfCode code with
  | some k => { s with hreg := hregWrite s.hreg k en, regPort := .reports .outNone }
  | none => raise .badEventHandler s

/-! ## Pins and the bus -/

/-- The effect of one pin operation (R44, R184). -/
def pinOp (o : PinOp) (x : Pins) : Pins :=
  match o with
  | .csLow => { x with csn := false }
  | .csHigh => { x with csn := true }
  | .setAddr a => { x with a := a }
  | .setData v => { x with d := v }
  | .wrLow => { x with wrn := false }
  | .wrHigh => { x with wrn := true }
  | .settle => x

/-- The effect of a list of pin operations, performed in list order (R49 (b)). -/
def pinOpsOn : List PinOp → Pins → Pins
  | [], x => x
  | o :: os, x => pinOpsOn os (pinOp o x)

/-- `BusWrite(addr, v)` (R44). -/
def busWrite (a : BitVec 2) (v : Byte) : List PinOp :=
  [.setAddr a, .setData v, .wrLow, .settle, .wrHigh, .settle]

/-- The pin operations are performed and are what the step reports. -/
def perform (ops : List PinOp) (s : State) : State :=
  { s with pins := pinOpsOn ops s.pins, pinOps := ops }

/-- The register writes a list of pin operations makes, each the address and the data present at a falling edge of the
write strobe, from the pins `x` (R44, R256). -/
def registerWrites : List PinOp → Pins → List (BitVec 2 × Byte)
  | [], _ => []
  | o :: os, x =>
    let rest := registerWrites os (pinOp o x)
    match o with
    | .wrLow => if x.wrn then (x.a, x.d) :: rest else rest
    | .csLow | .csHigh | .setAddr _ | .setData _ | .wrHigh | .settle => rest

/-- The control word `(c << 6) | (am << 4) | (MODE_BITS << 1) | BCD_BIT` (R74). -/
def controlByte (c am : BitVec 2) (mode : BitVec 3) (bcd : BitVec 1) : Byte := c ++ (am ++ (mode ++ bcd))

/-! ## The dirty cache -/

/-- The entry of a channel (R20). -/
def cacheGet (t : Cache) : TimerCh → CacheEntry
  | 0 => t.c0
  | 1 => t.c1
  | 2 => t.c2

/-- The cache with the entry of one channel replaced; the other channels' entries are untouched (R186). -/
def cacheSet (t : Cache) (c : TimerCh) (e : CacheEntry) : Cache :=
  match c with
  | 0 => { t with c0 := e }
  | 1 => { t with c1 := e }
  | 2 => { t with c2 := e }

/-- The entry after the dirty bytes have been written: each becomes the requested byte and valid (R186). -/
def entryUpdate (e : CacheEntry) (l m : Byte) (dl dm : Bool) : CacheEntry where
  lsbc := if dl then l else e.lsbc
  msbc := if dm then m else e.msbc
  lsbv := if dl then true else e.lsbv
  msbv := if dm then true else e.msbv

/-- The cache update of a command (R186). -/
def cacheUpdate (x : Pending) (t : Cache) : Cache :=
  cacheSet t x.c (entryUpdate (cacheGet t x.c) x.l x.m x.dl x.dm)

end Sys2Proof.Machine
end

