-- ==== Sys2Proof/Machine/Companion.lean ====
section
/-!
DEFINITION. The companion between the two blocks: `VoiceState`, `FrequencyController` and the routing of events
(44_voice_glue.md). It hands its commands to the timer programmer by offering them at the front of the schedule
(entry 13).
-/

namespace Sys2Proof.Machine

/-- `ComputeFrequency(base, bend)`: inside the deadband the base itself, below it at least the floor, above it at most
the ceiling (R212; entry 7). -/
def computeFrequency (p : Params) (base : Nat) (bend : Int) : Nat :=
  if bend < -(p.deadLow : Int) then max p.freqFloor (p.bendBelow base bend)
  else if (p.deadHigh : Int) < bend then min p.freqCeiling (p.bendAbove base bend)
  else base

/-- A `writeChannel` on the voice's channel with the two bytes of a divisor is offered to the timer programmer (R218). -/
def offerDivisor (p : Params) (d : Nat) (s : State) : State :=
  { s with inputs := .call (.cmd (cmdWord p.voiceChannel (divisorLsb d) (divisorMsb d))) :: s.inputs }

/-- `Reprogram(f)` (R218). `Divisor(0)` has no result and the call is refused (R196 (a), U8). -/
def reprogram (p : Params) (f : Nat) (s : State) : Result :=
  match divisor p f with
  | some d => .next (offerDivisor p d s)
  | none => .refused .divisorOfZero

/-- `noteOn(base)` (R214). -/
def noteOn (p : Params) (base : Nat) (s : State) : Result :=
  let f := computeFrequency p base s.voice.pitchBendValue
  reprogram p f { s with voice := { s.voice with
    notesHeld := s.voice.notesHeld + 1, baseFrequency := base, targetFrequency := f, actualFrequency := f } }

/-- `Silence()` (R221). -/
def silence (p : Params) (s : State) : State :=
  offerDivisor p p.divSilent.toNat { s with voice := { s.voice with
    baseFrequency := p.fQuiescent, targetFrequency := p.fQuiescent, actualFrequency := p.fQuiescent } }

/-- `noteOff()` (R215): clamped at zero; silenced on the way from 1 to 0 only. -/
def noteOff (p : Params) (s : State) : State :=
  match s.voice.notesHeld with
  | 0 => s
  | 1 => silence p { s with voice := { s.voice with notesHeld := 0 } }
  | n + 2 => { s with voice := { s.voice with notesHeld := n + 1 } }

/-- `applyPitchBend(value)` (R213). -/
def applyPitchBend (p : Params) (value : Int) (s : State) : Result :=
  if s.voice.notesHeld = 0 then .next { s with voice := { s.voice with pitchBendValue := value } }
  else
    let f := computeFrequency p s.voice.baseFrequency value
    if p.glideEn then .next { s with voice := { s.voice with pitchBendValue := value, targetFrequency := f } }
    else reprogram p f { s with voice := { s.voice with
      pitchBendValue := value, targetFrequency := f, actualFrequency := f } }

/-- The step of a glide: a tenth of the distance, rounded up (R220). -/
def glideStep (distance : Nat) : Nat := (distance + 9) / 10

/-- One glide step from `actual` toward `target` (R220). -/
def glideMove (actual target : Nat) : Nat :=
  if actual < target then actual + glideStep (target - actual) else actual - glideStep (actual - target)

/-- The glide tick (R220). -/
def glideTick (p : Params) (s : State) : Result :=
  if p.glideEn && decide (0 < s.voice.notesHeld) && s.voice.actualFrequency != s.voice.targetFrequency then
    let f := glideMove s.voice.actualFrequency s.voice.targetFrequency
    reprogram p f { s with voice := { s.voice with actualFrequency := f } }
  else .next s

/-- The routing of a delivered event to the companion's operations (R217): NOTE_ON with velocity 0 is a note-off (R216);
the channel is ignored; every other kind is left to its own handler. -/
def handleEvent (p : Params) (e : Event) (s : State) : Result :=
  match e.kind with
  | .cv .noteOn =>
    if e.data2 = 0#8 then .next (noteOff p s) else noteOn p (p.noteFreq (e.data1.extractLsb' 0 7)) s
  | .cv .noteOff => .next (noteOff p s)
  | .cv .pitchBend => applyPitchBend p (bendValue e.data1 e.data2) s
  | .cv .polyAftertouch | .cv .controlChange | .cv .programChange | .cv .channelAftertouch | .sc _ | .rt _ => .next s

/-- The event sink: it acts on an event only when `ev_registered = 1` (R19, R162). -/
def sinkEvent (p : Params) (e : Option Event) (s : State) : Result :=
  match e with
  | some e => if e.registered then handleEvent p e s else .next s
  | none => .next s

end Sys2Proof.Machine
end

