-- ==== Sys2Proof/Machine/DataBytes.lean ====
section
/-!
DEFINITION. The meaning of a data byte, the only class whose handling depends on `PSTATE` (41_midi_data_bytes.md, table
R151).
-/

namespace Sys2Proof.Machine

/-- A data byte in each of the 16 states. Discarded in `WaitingForStatus` (R130), in `Error` (R131) and in the two
unreachable `AwaitSecond` states (R150); stored as the first of two (R132 to R137); completing a two-data-byte message
(R147, R138 to R142) or a one-data-byte message, whose unused second byte is zero (R148, R143, R144). -/
def dataByte (p : Params) (b : Byte) (s : State) : State :=
  match s.pstate with
  | .waitingForStatus => noMessage s
  | .error => noMessage s
  | .awaitFirst k => if oneDataByte k then complete p k b 0#8 s else storeFirst k b s
  | .awaitSecond k => if oneDataByte k then noMessage s else complete p k s.data1 b s

/-- DATA (R151). -/
def execDataWith (p : Params) (v : BitVec 7) (s : State) : Result := .next (dataByte p (dataOf v) s)
/-- DATA at the machine's parameters. -/
def execData (v : BitVec 7) (s : State) : Result := execDataWith Config.params v s

end Sys2Proof.Machine
end

