-- ==== Sys2Proof/Machine/Registration.lean ====
section
/-!
DEFINITION. The meanings of the registration commands (42_dispatch_registration.md R165 to R169).
-/

namespace Sys2Proof.Machine

/-- REGISTER (R165). A term whose kind is out of range is no word of this row; it acts as R166 says of such a kind. -/
def execRegister (kind : BitVec 5) (s : State) : Result := .next (registerSlot kind true s)
/-- UNREGISTER (R167). A term whose kind is out of range is no word of this row; it acts as R166 says of such a kind. -/
def execUnregister (kind : BitVec 5) (s : State) : Result := .next (registerSlot kind false s)
/-- REGISTER_BAD_KIND_7: kind code 7, with either enable bit (R166). -/
def execRegisterBadKind7 (en : BitVec 1) (s : State) : Result := .next (registerSlot 7#5 (en == 1#1) s)
/-- REGISTER_BAD_KIND_24_31: kind codes 24 to 31, with either enable bit (R166). -/
def execRegisterBadKind24To31 (en : BitVec 1) (low : BitVec 3) (s : State) : Result :=
  .next (registerSlot (0b11#2 ++ low) (en == 1#1) s)

end Sys2Proof.Machine
end

