-- ==== Sys2Proof/Machine/Reset.lean ====
section
/-!
DEFINITION. Reset (70_reset_and_hazards.md R270, R272; 10_state.md R33).
-/

namespace Sys2Proof.Machine

/-- Every piece of state takes its reset value, a bus sequence in progress is abandoned (R272); only the model's own
schedule of inputs and count of steps go on (entries 1, 3 and 11). -/
def resetOp (p : Params) (s : State) : State := { State.resetWith p with inputs := s.inputs, cycle := s.cycle }

/-- RESET (R270). -/
def execResetWith (p : Params) (s : State) : Result := .next (resetOp p s)
/-- RESET at the machine's parameters. -/
def execReset (s : State) : Result := execResetWith Config.params s

end Sys2Proof.Machine
end

