-- ==== Sys2Proof/Machine/StatusBytes.lean ====
section
/-!
DEFINITION. The meanings of the channel-voice, system-common and real-time status bytes (40_midi_status_bytes.md).
-/

namespace Sys2Proof.Machine

/-! ## Channel-voice status bytes (R90, R120 to R126) -/

/-- NOTE_OFF status (R120). -/
def execNoteOff (ch : BitVec 4) (s : State) : Result := .next (recordStatus (0x8#4 ++ ch) (.awaitFirst .noteOff) s)
/-- NOTE_ON status (R121). -/
def execNoteOn (ch : BitVec 4) (s : State) : Result := .next (recordStatus (0x9#4 ++ ch) (.awaitFirst .noteOn) s)
/-- POLY_AFTERTOUCH status (R122). -/
def execPolyAftertouch (ch : BitVec 4) (s : State) : Result :=
  .next (recordStatus (0xA#4 ++ ch) (.awaitFirst .polyAftertouch) s)
/-- CONTROL_CHANGE status (R123). -/
def execControlChange (ch : BitVec 4) (s : State) : Result :=
  .next (recordStatus (0xB#4 ++ ch) (.awaitFirst .controlChange) s)
/-- PROGRAM_CHANGE status (R124). -/
def execProgramChange (ch : BitVec 4) (s : State) : Result :=
  .next (recordStatus (0xC#4 ++ ch) (.awaitFirst .programChange) s)
/-- CHANNEL_AFTERTOUCH status (R125). -/
def execChannelAftertouch (ch : BitVec 4) (s : State) : Result :=
  .next (recordStatus (0xD#4 ++ ch) (.awaitFirst .channelAftertouch) s)
/-- PITCH_BEND status (R126). -/
def execPitchBend (ch : BitVec 4) (s : State) : Result := .next (recordStatus (0xE#4 ++ ch) (.awaitFirst .pitchBend) s)

/-! ## System-common status bytes (R100 to R108): recorded, absorbed, never dispatched -/

/-- SC_F0 (R101). -/
def execScF0 (s : State) : Result := .next (recordStatus 0xF0#8 .waitingForStatus s)
/-- SC_F1 (R102). -/
def execScF1 (s : State) : Result := .next (recordStatus 0xF1#8 .waitingForStatus s)
/-- SC_F2 (R103). -/
def execScF2 (s : State) : Result := .next (recordStatus 0xF2#8 .waitingForStatus s)
/-- SC_F3 (R104). -/
def execScF3 (s : State) : Result := .next (recordStatus 0xF3#8 .waitingForStatus s)
/-- SC_F4 (R105). -/
def execScF4 (s : State) : Result := .next (recordStatus 0xF4#8 .waitingForStatus s)
/-- SC_F5 (R106). -/
def execScF5 (s : State) : Result := .next (recordStatus 0xF5#8 .waitingForStatus s)
/-- SC_F6 (R107). -/
def execScF6 (s : State) : Result := .next (recordStatus 0xF6#8 .waitingForStatus s)
/-- SC_F7 (R108). -/
def execScF7 (s : State) : Result := .next (recordStatus 0xF7#8 .waitingForStatus s)

/-! ## Real-time status bytes (R110 to R118): dispatched at once, nothing else changes -/

/-- RT_F8, kind code 16 (R111). -/
def execRtF8With (p : Params) (s : State) : Result := .next (dispatch p (.rt 0#3) 0#4 0#8 0#8 s)
/-- RT_F8 at the machine's parameters. -/
def execRtF8 (s : State) : Result := execRtF8With Config.params s
/-- RT_F9, kind code 17 (R112). -/
def execRtF9With (p : Params) (s : State) : Result := .next (dispatch p (.rt 1#3) 0#4 0#8 0#8 s)
/-- RT_F9 at the machine's parameters. -/
def execRtF9 (s : State) : Result := execRtF9With Config.params s
/-- RT_FA, kind code 18 (R113). -/
def execRtFAWith (p : Params) (s : State) : Result := .next (dispatch p (.rt 2#3) 0#4 0#8 0#8 s)
/-- RT_FA at the machine's parameters. -/
def execRtFA (s : State) : Result := execRtFAWith Config.params s
/-- RT_FB, kind code 19 (R114). -/
def execRtFBWith (p : Params) (s : State) : Result := .next (dispatch p (.rt 3#3) 0#4 0#8 0#8 s)
/-- RT_FB at the machine's parameters. -/
def execRtFB (s : State) : Result := execRtFBWith Config.params s
/-- RT_FC, kind code 20 (R115). -/
def execRtFCWith (p : Params) (s : State) : Result := .next (dispatch p (.rt 4#3) 0#4 0#8 0#8 s)
/-- RT_FC at the machine's parameters. -/
def execRtFC (s : State) : Result := execRtFCWith Config.params s
/-- RT_FD, kind code 21 (R116). -/
def execRtFDWith (p : Params) (s : State) : Result := .next (dispatch p (.rt 5#3) 0#4 0#8 0#8 s)
/-- RT_FD at the machine's parameters. -/
def execRtFD (s : State) : Result := execRtFDWith Config.params s
/-- RT_FE, kind code 22 (R117). -/
def execRtFEWith (p : Params) (s : State) : Result := .next (dispatch p (.rt 6#3) 0#4 0#8 0#8 s)
/-- RT_FE at the machine's parameters. -/
def execRtFE (s : State) : Result := execRtFEWith Config.params s
/-- RT_FF, kind code 23; it resets nothing (R118). -/
def execRtFFWith (p : Params) (s : State) : Result := .next (dispatch p (.rt 7#3) 0#4 0#8 0#8 s)
/-- RT_FF at the machine's parameters. -/
def execRtFF (s : State) : Result := execRtFFWith Config.params s

end Sys2Proof.Machine
end

