-- ==== Sys2Proof/Machine/Timer.lean ====
section
/-!
DEFINITION. The timer programmer at the function level (43_timer_programmer.md R180 to R188): a command runs to
completion in one step. The cycle-level rendering is in Machine/Cycle.lean.
-/

namespace Sys2Proof.Machine

/-- The control word of a command (R74, R182). -/
def controlWordOf (p : Params) (x : Pending) : Byte :=
  controlByte (channelId x.c) (accessMode x.dl x.dm) p.modeBits p.bcdBit

/-- The bus operations that emit the control word of a command: chip-select, then the write to the control register
(R184, R185). -/
def controlOps (p : Params) (x : Pending) : List PinOp := [.csLow] ++ busWrite p.addrCtrl (controlWordOf p x)

/-- The bus operations after the control word: the dirty bytes LSB before MSB, then chip-select released (R184, R185). -/
def dataOps (p : Params) (x : Pending) : List PinOp :=
  (if x.dl then busWrite (p.addrCnt x.c) x.l else []) ++ (if x.dm then busWrite (p.addrCnt x.c) x.m else []) ++ [.csHigh]

/-- The bus operations of `writeChannel` with at least one dirty byte, in order (R185). -/
def writeOps (p : Params) (x : Pending) : List PinOp := controlOps p x ++ dataOps p x

/-- The command with its dirty conditions, computed from the cache as every earlier command left it (R181). -/
def pendingOf (t : Cache) (c : TimerCh) (l m : Byte) : Pending where
  c := c
  l := l
  m := m
  dl := dirtyLsb (cacheGet t c) l
  dm := dirtyMsb (cacheGet t c) m

/-- `writeChannel(c, l, m)`: a command offered while `SEQ` is busy is not accepted and has no effect (R189); channel id
3 is ignored (R180); with nothing dirty the whole operation is skipped (R183); otherwise the bus operations of R185 and
the cache update of R186. -/
def writeChannelOp (p : Params) (c : BitVec 2) (l m : Byte) (s : State) : State :=
  match s.seq with
  | .busy _ _ _ => { s with pinOps := [] }
  | .idle =>
    match timerChannel c with
    | none => { s with pinOps := [] }
    | some ch =>
      let x := pendingOf s.cache ch l m
      if x.dl || x.dm then { perform (writeOps p x) s with cache := cacheUpdate x s.cache }
      else { s with pinOps := [] }

/-- CONTROL_WORD: the timer programmer emits `b`. The control register is reached only by `writeChannel` (10_state.md
R32), so `b` goes out only while the command in progress has its control word to emit and that is `b`: the pin operations
of that emission which remain are performed, and those of the data bytes are left to the sequencer. No other control
word is ever emitted (R78): nothing happens (DESIGN CHOICE, entry 8). -/
def emitControlWord (p : Params) (b : Byte) (s : State) : State :=
  match s.seq with
  | .idle => { s with pinOps := [] }
  | .busy x ops _ =>
    let n := ops.length - (dataOps p x).length
    if b = controlWordOf p x ∧ 0 < n then { perform (ops.take n) s with seq := .busy x (ops.drop n) 0 }
    else { s with pinOps := [] }

/-- WRITE_CHANNEL (R185). -/
def execWriteChannelWith (p : Params) (c : BitVec 2) (lsb msb : Byte) (s : State) : Result :=
  .next (writeChannelOp p c lsb msb s)
/-- WRITE_CHANNEL at the machine's parameters. -/
def execWriteChannel (c : BitVec 2) (lsb msb : Byte) (s : State) : Result :=
  execWriteChannelWith Config.params c lsb msb s
/-- WRITE_CHANNEL_INVALID: `writeChannel(3, l, m)` (R180). -/
def execWriteChannelInvalidWith (p : Params) (lsb msb : Byte) (s : State) : Result :=
  .next (writeChannelOp p 3#2 lsb msb s)
/-- WRITE_CHANNEL_INVALID at the machine's parameters. -/
def execWriteChannelInvalid (lsb msb : Byte) (s : State) : Result := execWriteChannelInvalidWith Config.params lsb msb s
/-- CONTROL_WORD (R74, R185; entry 8). -/
def execControlWordWith (p : Params) (c am : BitVec 2) (mode : BitVec 3) (bcd : BitVec 1) (s : State) : Result :=
  .next (emitControlWord p (controlByte c am mode bcd) s)
/-- CONTROL_WORD at the machine's parameters. -/
def execControlWord (c am : BitVec 2) (mode : BitVec 3) (bcd : BitVec 1) (s : State) : Result :=
  execControlWordWith Config.params c am mode bcd s

end Sys2Proof.Machine
end

