-- ==== Sys2Proof/Machine/Dispatch.lean ====
section
/-! DEFINITION. One arm for each constructor of Instr, each a direct call of its meaning. -/

namespace Sys2Proof.Machine

def exec (i : Instr) (s : State) : Host.Outcome State Fault Refusal :=
  match i with
  | .noteOff ch => Sys2Proof.Machine.execNoteOff ch s
  | .noteOn ch => Sys2Proof.Machine.execNoteOn ch s
  | .polyAftertouch ch => Sys2Proof.Machine.execPolyAftertouch ch s
  | .controlChange ch => Sys2Proof.Machine.execControlChange ch s
  | .programChange ch => Sys2Proof.Machine.execProgramChange ch s
  | .channelAftertouch ch => Sys2Proof.Machine.execChannelAftertouch ch s
  | .pitchBend ch => Sys2Proof.Machine.execPitchBend ch s
  | .scF0 => Sys2Proof.Machine.execScF0 s
  | .scF1 => Sys2Proof.Machine.execScF1 s
  | .scF2 => Sys2Proof.Machine.execScF2 s
  | .scF3 => Sys2Proof.Machine.execScF3 s
  | .scF4 => Sys2Proof.Machine.execScF4 s
  | .scF5 => Sys2Proof.Machine.execScF5 s
  | .scF6 => Sys2Proof.Machine.execScF6 s
  | .scF7 => Sys2Proof.Machine.execScF7 s
  | .rtF8 => Sys2Proof.Machine.execRtF8 s
  | .rtF9 => Sys2Proof.Machine.execRtF9 s
  | .rtFA => Sys2Proof.Machine.execRtFA s
  | .rtFB => Sys2Proof.Machine.execRtFB s
  | .rtFC => Sys2Proof.Machine.execRtFC s
  | .rtFD => Sys2Proof.Machine.execRtFD s
  | .rtFE => Sys2Proof.Machine.execRtFE s
  | .rtFF => Sys2Proof.Machine.execRtFF s
  | .data v => Sys2Proof.Machine.execData v s
  | .register kind => Sys2Proof.Machine.execRegister kind s
  | .unregister kind => Sys2Proof.Machine.execUnregister kind s
  | .registerBadKind7 en => Sys2Proof.Machine.execRegisterBadKind7 en s
  | .registerBadKind24To31 en low => Sys2Proof.Machine.execRegisterBadKind24To31 en low s
  | .writeChannel c lsb msb => Sys2Proof.Machine.execWriteChannel c lsb msb s
  | .writeChannelInvalid lsb msb => Sys2Proof.Machine.execWriteChannelInvalid lsb msb s
  | .controlWord c am mode bcd => Sys2Proof.Machine.execControlWord c am mode bcd s
  | .reset => Sys2Proof.Machine.execReset s

end Sys2Proof.Machine
end

