-- ==== Sys2Proof/Machine/WithParams.lean ====
section
/-!
DEFINITION. The meanings of all instructions with the implementation parameters as an argument, as 00_scope.md R4 asks.
`exec` (Machine/Dispatch.lean) is this function at `Config.params`.
-/

namespace Sys2Proof.Machine

/-- The meaning of an instruction for any parameters (R4). -/
def execWith (p : Params) (i : Instr) (s : State) : Result :=
  match i with
  | .noteOff ch => execNoteOff ch s
  | .noteOn ch => execNoteOn ch s
  | .polyAftertouch ch => execPolyAftertouch ch s
  | .controlChange ch => execControlChange ch s
  | .programChange ch => execProgramChange ch s
  | .channelAftertouch ch => execChannelAftertouch ch s
  | .pitchBend ch => execPitchBend ch s
  | .scF0 => execScF0 s
  | .scF1 => execScF1 s
  | .scF2 => execScF2 s
  | .scF3 => execScF3 s
  | .scF4 => execScF4 s
  | .scF5 => execScF5 s
  | .scF6 => execScF6 s
  | .scF7 => execScF7 s
  | .rtF8 => execRtF8With p s
  | .rtF9 => execRtF9With p s
  | .rtFA => execRtFAWith p s
  | .rtFB => execRtFBWith p s
  | .rtFC => execRtFCWith p s
  | .rtFD => execRtFDWith p s
  | .rtFE => execRtFEWith p s
  | .rtFF => execRtFFWith p s
  | .data v => execDataWith p v s
  | .register kind => execRegister kind s
  | .unregister kind => execUnregister kind s
  | .registerBadKind7 en => execRegisterBadKind7 en s
  | .registerBadKind24To31 en low => execRegisterBadKind24To31 en low s
  | .writeChannel c lsb msb => execWriteChannelWith p c lsb msb s
  | .writeChannelInvalid lsb msb => execWriteChannelInvalidWith p lsb msb s
  | .controlWord c am mode bcd => execControlWordWith p c am mode bcd s
  | .reset => execResetWith p s

end Sys2Proof.Machine
end

