-- ==== Sys2Proof/Machine/Fetch.lean ====
section
/-!
DEFINITION. Running the word that a port presents: decode it and run the instruction. There is no instruction memory
(10_state.md R29); a word is consumed once by the step that takes it (20_memory.md R53).
-/

namespace Sys2Proof.Machine

/-- What becomes of a word that decodes to no instruction: the default arm of the kind selection raises its error (R98);
a byte that is never emitted as a control word is refused by name (R78). -/
def undecoded (e : DecodeError) (s : State) : Result :=
  match e with
  | .unrecognizedHighNibble b => .next (badChannelState b s)
  | .controlWordChannel3 b => .refused (.controlWordNeverEmitted b)
  | .controlWordLatch b => .refused (.controlWordNeverEmitted b)
  | .controlWordFixedBits b => .refused (.controlWordNeverEmitted b)

/-- What runs the word that a port presents. -/
abbrev Runner := Frame → State → Result

/-- One word on one port. -/
def runFrame : Runner := fun f s =>
  match decode f with
  | .ok i => exec i s
  | .error e => undecoded e s

/-- One word on one port, for any parameters (R4). -/
def runFrameWith (p : Params) : Runner := fun f s =>
  match decodeWith p f with
  | .ok i => execWith p i s
  | .error e => undecoded e s

/-- A word that may be there or not: a valid line that is 0 offers nothing. -/
def runOffered (run : Runner) (f : Option Frame) (s : State) : Result :=
  match f with
  | some f => run f s
  | none => .next s

/-- The words that need the bus free: their offerer holds them until the block is ready (R189, R286). -/
def needsBus : Frame → Bool
  | .cmd _ => true
  | .rx _ | .reg _ | .bus _ | .rst => false

end Sys2Proof.Machine
end

