-- ==== Sys2Proof/Machine/Cycle.lean ====
section
/-!
DEFINITION. The cycle-level rendering (10_state.md R23, 43_timer_programmer.md R189, R190): one rising edge of `clk`
with the inputs of all ports. Only the order of the pin operations and the lower bounds on the delays are normative
(R44, R190, R290): without a `hold` the edges follow the schedule R190 writes out, and a `hold` makes any delay longer
(entry 12).
-/

namespace Sys2Proof.Machine

/-- Whether a pin operation is the last of its clock edge: address and data take effect together, the strobe moves at
least one edge after them, and each `Settle` lasts (R44, R190). -/
def endsEdge : PinOp → Bool
  | .setData _ => true
  | .settle => true
  | .csHigh => true
  | .csLow | .setAddr _ | .wrLow | .wrHigh => false

/-- The pin operations of one clock edge, and those that remain. -/
def splitEdge : List PinOp → List PinOp × List PinOp
  | [] => ([], [])
  | o :: os => if endsEdge o then ([o], os) else (o :: (splitEdge os).1, (splitEdge os).2)

/-- The clock edges to let pass after the pin operations of an edge: a strobe edge is followed by `T_SETTLE` cycles, the
first of which its own edge begins (R190, R191). -/
def settleWait (p : Params) (now : List PinOp) : Nat :=
  if now.contains .settle then p.tSettle - 1 else 0

/-- One clock edge of the bus sequencer. On the edge that performs the last pin operation the cache is updated and `SEQ`
becomes `Idle` (R186, R190). -/
def seqEdge (p : Params) (s : State) : State :=
  match s.seq with
  | .idle => s
  | .busy x ops (n + 1) => { s with seq := .busy x ops n }
  | .busy x ops 0 =>
    let now := (splitEdge ops).1
    let rest := (splitEdge ops).2
    let t := perform now s
    if rest.isEmpty then { t with seq := .idle, cache := cacheUpdate x s.cache }
    else { t with seq := .busy x rest (settleWait p now) }

/-- One clock edge of a busy sequencer, which waits if the edge says so: every delay is a lower bound (R44, R290). -/
def heldEdge (p : Params) (hold : Bool) (s : State) : State := if hold then s else seqEdge p s

/-- Acceptance of a timer command on an edge with `cmd_ready = 1` (R189): an ignored or skipped command is finished in
the same step and `busy` never rises (R180, R183); any other begins its sequence on this edge (R190). -/
def acceptCommand (p : Params) (hold : Bool) (w : BitVec 18) (s : State) : State :=
  match timerChannel (cmdChannel w) with
  | none => s
  | some ch =>
    let x := pendingOf s.cache ch (cmdLsb w) (cmdMsb w)
    if x.dl || x.dm then heldEdge p hold { s with seq := .busy x (writeOps p x) 0 } else s

/-- The timer programmer at one edge: a busy sequencer goes on and accepts nothing (R189, R286). -/
def timerEdge (p : Params) (hold : Bool) (cmd : Option (BitVec 18)) (s : State) : State :=
  match s.seq with
  | .busy _ _ _ => heldEdge p hold s
  | .idle =>
    match cmd with
    | some w => acceptCommand p hold w s
    | none => s

/-- An edge on which nothing is offered and the sequencer waits no longer than it must. -/
def Edge.quiet : Edge := { rst := false, rx := none, reg := none, cmd := none, hold := false }

/-- One rising edge of `clk`: reset wins over everything (R270); otherwise the registration is applied first, then the
received byte (R168), with the timer programmer beside them (R248). -/
def clockEdge (p : Params) (run : Runner) (e : Edge) (s : State) : Result :=
  if e.rst then run .rst s
  else
    andThen (runOffered run (e.reg.map .reg) s) fun s₁ =>
    andThen (runOffered run (e.rx.map .rx) s₁) fun s₂ =>
    .next (timerEdge p e.hold e.cmd s₂)

end Sys2Proof.Machine
end

