-- ==== Sys2Proof/Machine/Step.lean ====
section
/-!
DEFINITION. One step of the machine: the first stimulus of the schedule is taken (entries 1, 2, 10, 13, 21).
-/

namespace Sys2Proof.Machine

/-- The state a taken stimulus acts on: a new cycle, with the stimulus gone from the schedule. -/
def State.taking (s : State) (rest : List Stimulus) : State := { newCycle s with inputs := rest }

/-- One step, for any parameters and whatever runs the words. With nothing offered the blocks wait: an idle clock edge
(R257). A call that needs the bus is held while the bus sequence of the command before it runs (R52, R189); any other
call is run. A call that is run, a turn of the event sink and a tick are no clock edges: with `SEQ` busy the sequencer
and its settle timer stand still in that step, unless the call is a reset (R272) or a control word (entry 8). The spec
does not mix its two levels, so that is the model's DESIGN CHOICE (entry 21). -/
def stepOf (p : Params) (run : Runner) (s : State) : Result :=
  match s.inputs with
  | [] => clockEdge p run Edge.quiet (newCycle s)
  | .call f :: rest =>
    if needsBus f && s.busy then clockEdge p run Edge.quiet (newCycle s) else run f (s.taking rest)
  | .clock e :: rest => clockEdge p run e (s.taking rest)
  | .glue :: rest => sinkEvent p s.evPort.report (s.taking rest)
  | .tick :: rest => glideTick p (s.taking rest)

/-- One step of the machine: words are decoded by `decode` and run by `exec`. A call of a byte or a registration, a turn of
the event sink and a tick are no clock edges: taken while `SEQ` is busy they leave the sequencer and its settle timer
where they are (DESIGN CHOICE, entry 21). -/
def step (s : State) : Host.Outcome State Fault Refusal := stepOf Config.params runFrame s

/-- One step for any parameters (R4). -/
def stepWith (p : Params) (s : State) : Result := stepOf p (runFrameWith p) s

/-- The state with the instruction of a table word offered next, ahead of everything else; for a timer command the bus
must be free, or the command would be held. -/
def State.withFetchWord (s : State) (nbits w : Nat) : State :=
  match tableFrame nbits w with
  | some f => { s with inputs := .call f :: s.inputs, seq := if needsBus f then .idle else s.seq }
  | none => s

end Sys2Proof.Machine
end

