-- ==== Sys2Proof/Machine/Messages.lean ====
section
/-!
DEFINITION. The written forms of byte streams and commands (30_encoding.md R81, R82): each is an abbreviation of bytes or
of one command, not a new operation.
-/

namespace Sys2Proof.Machine

/-- The data bytes of a message of a kind: one for PROGRAM_CHANGE and CHANNEL_AFTERTOUCH, two for the other five (R65,
R67); also the running-status forms `RUN d1, d2` and `RUN d1` (R82 (a)). -/
def runBytes (k : CvKind) (d1 d2 : BitVec 7) : List Byte :=
  if oneDataByte k then [dataOf d1] else [dataOf d1, dataOf d2]

/-- A whole channel-voice message, `NOTE_ON ch, d1, d2` and its fellows (R81). -/
def messageBytes (k : CvKind) (ch : BitVec 4) (d1 d2 : BitVec 7) : List Byte := statusByte k ch :: runBytes k d1 d2

/-- `SC n` (R81). -/
def scByte (n : BitVec 3) : Byte := 0b11110#5 ++ n

/-- `RT n` (R81). -/
def rtByte (n : BitVec 3) : Byte := 0b11111#5 ++ n

/-- `SET_FREQ c, f`, `c` in 0 to 3: the `writeChannel` of the divisor's two bytes, none for frequency 0 (R81, R82 (b),
R197). -/
def setFreq (p : Params) (c : BitVec 2) (f : Nat) : Option Frame :=
  (divisor p f).map fun d => .cmd (c ++ (divisorLsb d ++ divisorMsb d))

end Sys2Proof.Machine
end

