-- ==== Sys2Proof/Machine/Receive.lean ====
section
/-!
DEFINITION. `receive(b)` as 40_midi_status_bytes.md R127 writes it: the rule is selected by the class of the byte alone,
in the priority order of R60. It is the reference that decoding a byte and running its instruction is held against.
-/

namespace Sys2Proof.Machine

/-- `RealTime(b)` (R110). -/
def realTime (p : Params) (b : Byte) (s : State) : State := dispatch p (.rt (b.extractLsb' 0 3)) 0#4 0#8 0#8 s

/-- `SystemCommon(b)` (R100). -/
def systemCommon (b : Byte) (s : State) : State := recordStatus b .waitingForStatus s

/-- `ChannelVoiceStatus(b)` (R90), with the error arm as the default of the kind selection (R98). -/
def channelVoiceStatus (b : Byte) (s : State) : State :=
  match cvOfCode (b.extractLsb' 4 3) with
  | some k => recordStatus b (.awaitFirst k) s
  | none => badChannelState b s

/-- `receive(b)` (R127). -/
def receive (p : Params) (b : Byte) (s : State) : State :=
  if b.extractLsb' 3 5 = 0b11111#5 then realTime p b s
  else if b.extractLsb' 4 4 = 0b1111#4 then systemCommon b s
  else if b.getLsbD 7 then channelVoiceStatus b s
  else dataByte p b s

end Sys2Proof.Machine
end

