-- ==== Sys2Proof/Safety.lean ====
section
/-!
DEFINITION. The terms that statements about the machine use: the invariants of the state (10_state.md R15, R16, R17, R23, R24;
44_voice_glue.md R210), what a byte stream does, and which fields belong to which block.
-/

namespace Sys2Proof.Machine

/-! ## Invariants -/

/-- R17 (a): while a channel-voice message is awaited, `STATUS` is a status byte of its kind. -/
def statusMatches (s : State) : Prop :=
  ∀ k, s.pstate = .awaitFirst k ∨ s.pstate = .awaitSecond k → s.status.extractLsb' 4 4 = 1#1 ++ cvCode k

/-- R17 (b), (d): `DATA1` is 0 unless a first byte is stored, and its bit 7 is always 0. -/
def dataOneClear (s : State) : Prop :=
  ((∀ k, s.pstate ≠ .awaitSecond k) → s.data1 = 0#8) ∧ s.data1.getLsbD 7 = false

/-- R17 (c): `DATA2` is 0. -/
def dataTwoClear (s : State) : Prop := s.data2 = 0#8

/-- R17 (e): the unreachable values of `PSTATE` do not occur. -/
def pstateReachable (s : State) : Prop :=
  s.pstate ≠ .awaitSecond .programChange ∧ s.pstate ≠ .awaitSecond .channelAftertouch ∧ s.pstate ≠ .error

/-- R15: the event counter is a number of `EVCNT_W` bits. -/
def counterInRange (s : State) : Prop := s.evcnt < 2 ^ Config.params.evcntW

/-- R16: bit 7 of `HREG` belongs to no kind and is hardwired to 0. -/
def hregHole (s : State) : Prop := s.hreg.getLsbD 7 = false

/-- The pin operations that remain to be performed. -/
def remainingOps (q : Seq) : List PinOp :=
  match q with
  | .idle => []
  | .busy _ ops _ => ops

/-- R24 (b): chip-select and write-strobe are released between operations, and the sequence in progress releases them
before it ends. -/
def pinsRest (s : State) : Prop :=
  (pinOpsOn (remainingOps s.seq) s.pins).csn = true ∧ (pinOpsOn (remainingOps s.seq) s.pins).wrn = true

/-- R23, R185, R190: while `SEQ` is busy a byte of the pending command is dirty, what remains to be performed is the end of
that command's operations, and the settle timer is below `T_SETTLE`. -/
def sequencerInOrder (s : State) : Prop :=
  ∀ x ops n, s.seq = .busy x ops n →
    (x.dl || x.dm) = true ∧ ops ≠ [] ∧ ops <:+ writeOps Config.params x ∧ n < Config.params.tSettle

/-- R164, R248: an event is presented exactly when the outcome is `OUT_DISPATCHED`, and no event has a system-common
kind. -/
def outputsAgree (s : State) : Prop :=
  (s.outPort = .reports .outDispatched ↔ s.evValid = true) ∧ ∀ e, s.evPort = .reports e → ∀ n, e.kind ≠ .sc n

/-- R210: with no note held the frequencies are quiescent, and the pitch-bend value is in its range. -/
def voiceRest (s : State) : Prop :=
  (s.voice.notesHeld = 0 →
    s.voice.baseFrequency = Config.params.fQuiescent ∧ s.voice.targetFrequency = Config.params.fQuiescent ∧
    s.voice.actualFrequency = Config.params.fQuiescent) ∧
  -8192 ≤ s.voice.pitchBendValue ∧ s.voice.pitchBendValue ≤ 8191

/-- All of them. -/
structure Inv (s : State) : Prop where
  statusMatches : statusMatches s
  dataOneClear : dataOneClear s
  dataTwoClear : dataTwoClear s
  pstateReachable : pstateReachable s
  counterInRange : counterInRange s
  hregHole : hregHole s
  pinsRest : pinsRest s
  outputsAgree : outputsAgree s
  voiceRest : voiceRest s
  sequencerInOrder : sequencerInOrder s

/-! ## Byte streams -/

/-- A stream of received bytes, in arrival order (R280). -/
def feed : List Byte → State → Result
  | [], s => .next s
  | b :: bs, s => andThen (runFrame (.rx b) s) (feed bs)

/-- The events a stream dispatches, first one first. -/
def feedEvents : List Byte → State → List Event
  | [], _ => []
  | b :: bs, s =>
    match runFrame (.rx b) s with
    | .next t => t.evPort.report.toList ++ feedEvents bs t
    | .fault _ => []
    | .refused _ => []

/-- The outcomes a stream reports, first one first. -/
def feedOutcomes : List Byte → State → List OutCode
  | [], _ => []
  | b :: bs, s =>
    match runFrame (.rx b) s with
    | .next t => t.outPort.report.toList ++ feedOutcomes bs t
    | .fault _ => []
    | .refused _ => []

/-- A real-time byte: 0xF8 to 0xFF (R61). -/
def isRealTime (b : Byte) : Bool := b.extractLsb' 3 5 == 0b11111#5

/-- An event of a real-time kind. -/
def isRealTimeEvent (e : Event) : Bool :=
  match e.kind with
  | .rt _ => true
  | .cv _ | .sc _ => false

/-! ## The parts of the state (R50) -/

/-- The fields of the decoder, its ports among them. -/
def sameDecoder (s t : State) : Prop :=
  s.pstate = t.pstate ∧ s.status = t.status ∧ s.data1 = t.data1 ∧ s.data2 = t.data2 ∧ s.evcnt = t.evcnt ∧
  s.hreg = t.hreg ∧ s.outPort = t.outPort ∧ s.evPort = t.evPort ∧ s.regPort = t.regPort

/-- The fields of the timer programmer, its pins among them. -/
def sameTimer (s t : State) : Prop :=
  s.cache = t.cache ∧ s.pins = t.pins ∧ s.seq = t.seq ∧ s.pinOps = t.pinOps

/-- Instructions of the decoder: received bytes and registration commands. -/
def forDecoder (i : Instr) : Bool :=
  match encode i with
  | .rx _ | .reg _ => true
  | .cmd _ | .bus _ | .rst => false

/-- Instructions of the timer programmer: timer commands and control words. -/
def forTimer (i : Instr) : Bool :=
  match encode i with
  | .cmd _ | .bus _ => true
  | .rx _ | .reg _ | .rst => false

/-! ## Commands of the timer programmer -/

/-- The commands `(c, l, m)` run one after the other at the function level. -/
def writeAll (p : Params) : List (BitVec 2 × Byte × Byte) → State → State
  | [], s => s
  | (c, l, m) :: cs, s => writeAll p cs (writeChannelOp p c l m s)

/-- `n` edges of the sequencer with nothing offered. -/
def seqEdges (p : Params) : Nat → State → State
  | 0, s => s
  | n + 1, s => seqEdges p n (seqEdge p s)

/-- A clock edge on which nothing is offered and the sequencer may be held. -/
def holdEdge (hold : Bool) : Edge := { rst := false, rx := none, reg := none, cmd := none, hold := hold }

/-- The number of registers a command writes: 0, 2 or 3 (R185, R190). -/
def writesOf (x : Pending) : Nat :=
  if x.dl || x.dm then 1 + (if x.dl then 1 else 0) + (if x.dm then 1 else 0) else 0

end Sys2Proof.Machine
end

