-- ==== Sys2Proof/Certificates/Slice0/Obligations.lean ====
section
/-!
DEFINITION. The statements for the provers, each a proposition about the machine, in the order of OBLIGATIONS.json.
The definitions under `Claims` are the terms they share, written in the spec's own values.
-/

namespace Sys2Proof.Claims

open Sys2Proof.Machine

/-! ## Shared terms -/

/-- The instructions of the real-time class (R61). -/
def realTimeInstrs : List Instr := [.rtF8, .rtF9, .rtFA, .rtFB, .rtFC, .rtFD, .rtFE, .rtFF]

/-- The instructions of the system-common class (R62). -/
def systemCommonInstrs : List Instr := [.scF0, .scF1, .scF2, .scF3, .scF4, .scF5, .scF6, .scF7]

/-- The instructions of the channel-voice class on a channel (R63). -/
def channelVoiceInstrs (ch : BitVec 4) : List Instr :=
  [.noteOff ch, .noteOn ch, .polyAftertouch ch, .controlChange ch, .programChange ch, .channelAftertouch ch,
    .pitchBend ch]

/-- What the spec says of one channel-voice status byte: which bytes it is, how many data bytes follow, the `PSTATE`
code it leads to, and everything it changes. -/
def channelVoiceDoes (nibble : BitVec 4) (k : CvKind) (one : Bool) (code : BitVec 4) (i : BitVec 4 → Instr) : Prop :=
  oneDataByte k = one ∧ pstateCode (.awaitFirst k) = code ∧
  ∀ (ch : BitVec 4) (s : State),
    decode (.rx (nibble ++ ch)) = .ok (i ch) ∧
    exec (i ch) s = .next { s with
      status := nibble ++ ch, data1 := 0x00#8, data2 := 0x00#8, pstate := .awaitFirst k,
      outPort := .reports .outNone, evPort := .quiet }

/-- What the spec says of one system-common status byte. -/
def systemCommonDoes (b : Byte) (i : Instr) : Prop :=
  decode (.rx b) = .ok i ∧
  ∀ s : State, exec i s = .next { s with
    status := b, data1 := 0x00#8, data2 := 0x00#8, pstate := .waitingForStatus,
    outPort := .reports .outNone, evPort := .quiet }

/-- What the spec says of one real-time status byte: its event has kind code `code` and zero fields, and the output lines
carry it with `out_code` 1. -/
def realTimeDoes (b : Byte) (n : BitVec 3) (code : BitVec 5) (i : Instr) : Prop :=
  decode (.rx b) = .ok i ∧
  ∀ s : State,
    let t : State := { s with
      evPort := .reports
        { kind := .rt n, channel := 0#4, data1 := 0x00#8, data2 := 0x00#8,
          registered := s.hreg.getLsbD code.toNat }
      evcnt := (s.evcnt + 1) % 2 ^ Config.params.evcntW
      outPort := .reports .outDispatched }
    exec i s = .next t ∧ t.outValid = true ∧ t.outCode = 1#2 ∧ t.evValid = true ∧ t.evKind = code ∧
    t.evChannel = 0#4 ∧ t.evData1 = 0x00#8 ∧ t.evData2 = 0x00#8 ∧ t.evRegistered = s.hreg.getLsbD code.toNat

/-- The state after a completed channel-voice message of kind `k` with the event's two bytes (R147, R148, R145). -/
def completed (k : CvKind) (d1 d2 : Byte) (s : State) : State :=
  { s with
    evPort := .reports
      { kind := .cv k, channel := s.status.extractLsb' 0 4, data1 := d1, data2 := d2,
        registered := s.hreg.getLsbD (cvCode k).toNat }
    evcnt := (s.evcnt + 1) % 2 ^ Config.params.evcntW
    outPort := .reports .outDispatched
    data1 := 0x00#8, data2 := 0x00#8
    pstate := if Config.params.rsMode = .running then .awaitFirst k else .waitingForStatus }

/-- The state a step begins with: the outputs of the step before are gone, and one more step is counted (R18, R19;
entry 3). -/
def begun (s : State) : State :=
  { s with outPort := .quiet, evPort := .quiet, regPort := .quiet, pinOps := [], cycle := s.cycle + 1 }

/-- The two ends a completed message may leave `PSTATE` at, chosen by `RS_MODE` (R145). -/
def afterMessage (k : CvKind) : PState :=
  if Config.params.rsMode = .running then .awaitFirst k else .waitingForStatus

/-- One register write: address, data, strobe low and high, each followed by a settle delay (R44). -/
def oneWrite (a : BitVec 2) (v : Byte) : List PinOp :=
  [.setAddr a, .setData v, .wrLow, .settle, .wrHigh, .settle]

/-- The control words of R75, for channel 0, 1, 2 and access mode LSB only, MSB only, LSB then MSB. -/
def nineControlWords : List Byte := [0x16#8, 0x26#8, 0x36#8, 0x56#8, 0x66#8, 0x76#8, 0x96#8, 0xA6#8, 0xB6#8]

/-- The bytes of the last command to a channel in a list of commands. -/
def lastCommand (c : TimerCh) : List (BitVec 2 × Byte × Byte) → Option (Byte × Byte)
  | [] => none
  | (c', l, m) :: cs =>
    match lastCommand c cs with
    | some x => some x
    | none => if timerChannel c' = some c then some (l, m) else none

/-- The pin operations of `n` steps, in order. -/
def opsOfRun : Nat → State → List PinOp
  | 0, _ => []
  | n + 1, s =>
    match step s with
    | .next t => t.pinOps ++ opsOfRun n t
    | .fault _ => []
    | .refused _ => []

/-- An edge on which a timer command is offered and nothing else, and no delay is longer than it must be. -/
def offering (w : BitVec 18) : Edge := { rst := false, rx := none, reg := none, cmd := some w, hold := false }

/-- Whether a step is a rising edge of `clk`: one that the schedule names, an idle one, or one on which a call is held
(entries 1 and 10). -/
def isEdge (s : State) : Prop :=
  s.inputs = [] ∨ (∃ e rest, s.inputs = .clock e :: rest) ∨
  ∃ w rest, s.inputs = .call (.cmd w) :: rest ∧ s.seq ≠ .idle

/-- `n` calls of `noteOff`, one after the other. -/
def noteOffs (p : Params) : Nat → State → State
  | 0, s => s
  | n + 1, s => noteOffs p n (noteOff p s)

/-- The distance between two frequencies. -/
def gap (a b : Nat) : Nat := (a - b) + (b - a)

end Sys2Proof.Claims

open Sys2Proof Sys2Proof.Machine Sys2Proof.Claims

/-! ## Encoding -/

/-- Decoding the word of a well-formed instruction gives the instruction back, for all 32 constructors and every
operand, whatever the parameters and at the machine's own. -/
def Obligations.DecodeOfEncode : Prop :=
  (∀ (p : Params) (i : Instr), i.wfWith p = true → decodeWith p (encode i) = .ok i) ∧
  ∀ i : Instr, i.wf = true → decode (encode i) = .ok i

/-- A word that decodes to an instruction is the word of that instruction, and the instruction is well formed, whatever
the parameters and at the machine's own: no two words share a meaning, and no bit of a word is ignored. -/
def Obligations.EncodeOfDecode : Prop :=
  (∀ (p : Params) (f : Frame) (i : Instr), decodeWith p f = .ok i → encode i = f ∧ i.wfWith p = true) ∧
  ∀ (f : Frame) (i : Instr), decode f = .ok i → encode i = f ∧ i.wf = true

/-- Words written out bit by bit from the formats of 30_encoding.md decode to their instructions. The last is a control
word: its fixed bits stand at the spec's defaults (entry 6), and that it is a word with a port of its own is the model's
choice (entry 8). -/
def Obligations.WrittenOutWordsDecode : Prop :=
  decode (.rx 0b1001_1111#8) = .ok (.noteOn 15#4) ∧
  decode (.rx 0b1111_0111#8) = .ok .scF7 ∧
  decode (.rx 0b1111_1010#8) = .ok .rtFA ∧
  decode (.rx 0b0111_1111#8) = .ok (.data 127#7) ∧
  decode (.reg 0b1_10000#6) = .ok (.register 16#5) ∧
  decode (.reg 0b0_11000#6) = .ok (.registerBadKind24To31 0#1 0#3) ∧
  decode (.cmd 0b00_00110100_00010010#18) = .ok (.writeChannel 0#2 0x34#8 0x12#8) ∧
  decode (.cmd 0b11_00000000_00000000#18) = .ok (.writeChannelInvalid 0#8 0#8) ∧
  decode (.bus 0b01_10_011_0#8) = .ok (.controlWord 1#2 2#2 3#3 0#1)

/-- Every byte is one instruction of exactly one class, and the class is the one of its value range (R60 to R64, R69);
the default arm of the kind selection is reached by none (R98). -/
def Obligations.EveryByteHasOneClass : Prop :=
  ∀ b : Byte, ∃ i : Instr, decode (.rx b) = .ok i ∧
    (i ∈ realTimeInstrs ↔ 0xF8 ≤ b.toNat) ∧
    (i ∈ systemCommonInstrs ↔ 0xF0 ≤ b.toNat ∧ b.toNat ≤ 0xF7) ∧
    ((∃ ch, i ∈ channelVoiceInstrs ch) ↔ 0x80 ≤ b.toNat ∧ b.toNat ≤ 0xEF) ∧
    ((∃ v, i = .data v) ↔ b.toNat ≤ 0x7F)

/-- A byte is a control word exactly when it is one of the nine that can appear on the bus (R75, R78), with the default
mode bits (entry 6). -/
def Obligations.ControlWordsAreTheNine : Prop :=
  ∀ b : Byte, (∃ i, decode (.bus b) = .ok i) ↔ b ∈ nineControlWords

/-- Decoding a byte and running its instruction is `receive` as R127 writes it, in every state. -/
def Obligations.RunningAByteIsReceive : Prop :=
  ∀ (b : Byte) (s : State), runFrame (.rx b) s = .next (receive Config.params b s)

/-! ## Steps -/

/-- A step whose next stimulus is a call of a word that decodes to `i` is `exec i`, on a state whose outputs are those
of a new cycle and whose schedule goes on with the rest. That a step takes the first item of a schedule is the model's
choice (entry 1), that a call is one run at the function level and that a timer command is called only with `SEQ` idle
are read from the spec by inference (entries 2 and 10); that the call is no clock edge for a bus sequence in progress is
the model's choice (entry 21). -/
def Obligations.StepRunsDecodedInstruction : Prop :=
  ∀ (s : State) (f : Frame) (rest : List Stimulus) (i : Instr),
    s.inputs = .call f :: rest → decode f = .ok i → (needsBus f = true → s.seq = .idle) →
    i.wf = true ∧
    step s = exec i { begun s with inputs := rest }

/-- A call of a timer command is held while a bus sequence runs: the step is an edge of the sequencer and the call stays
first in the schedule. That is how the model renders the offerer of R52 and R189, who holds the command (entry 10). -/
def Obligations.CallWaitsForTheBus : Prop :=
  ∀ (s : State) (f : Frame) (rest : List Stimulus),
    s.inputs = .call f :: rest → needsBus f = true → s.seq ≠ .idle →
    ∃ t, step s = .next t ∧ t.inputs = s.inputs ∧
      t = seqEdge Config.params (begun s)

/-- With nothing offered and no bus sequence in progress a step changes nothing but the outputs, which are presented for
one cycle only (R257, R18, R19). That an empty schedule is an idle clock edge is the model's choice (entry 1). -/
def Obligations.NothingOfferedChangesNothing : Prop :=
  ∀ s : State, s.inputs = [] → s.seq = .idle →
    step s = .next (begun s)

/-- On one clock edge without reset the registration, if there is one, is applied before the received byte, if there is
one, and both before the timer programmer's part, each as its own instruction (R168, R248). -/
def Obligations.ClockEdgeOrder : Prop :=
  ∀ (s : State) (reg : Option (BitVec 6)) (rx : Option Byte) (cmd : Option (BitVec 18)) (hold : Bool)
    (rest : List Stimulus),
    s.inputs = .clock { rst := false, rx := rx, reg := reg, cmd := cmd, hold := hold } :: rest →
    ∃ s₁ s₂ : State,
      (match reg with
        | some w => ∃ i, decode (.reg w) = .ok i ∧ exec i { begun s with inputs := rest } = .next s₁
        | none => s₁ = { begun s with inputs := rest }) ∧
      (match rx with
        | some b => ∃ j, decode (.rx b) = .ok j ∧ exec j s₁ = .next s₂
        | none => s₂ = s₁) ∧
      step s = .next (timerEdge Config.params hold cmd s₂)

/-- Registering a kind on the very edge that receives its real-time byte marks that byte's event as registered
(R168). -/
def Obligations.RegisterOnTheEdgeOfTheByte : Prop :=
  ∀ (s : State) (n : BitVec 3) (hold : Bool) (rest : List Stimulus),
    s.inputs = .clock { rst := false, rx := some (rtByte n), reg := some (1#1 ++ kindCode (.rt n)), cmd := none
                        hold := hold } :: rest →
    ∃ t, step s = .next t ∧ t.regPort = .reports .outNone ∧ t.outPort = .reports .outDispatched ∧
      t.evPort = .reports { kind := .rt n, channel := 0#4, data1 := 0#8, data2 := 0#8, registered := true }

/-- No step faults, and a step whose next stimulus is a call on a hardware port, a clock edge or nothing at all has a
next state: no input stops either block (R246, R292). -/
def Obligations.NoInputStopsTheBlocks : Prop :=
  ∀ s : State, (∀ r, step s ≠ .fault r) ∧
    ((∀ b rest, s.inputs ≠ .call (.bus b) :: rest) → (∀ rest, s.inputs ≠ .glue :: rest) →
      (∀ rest, s.inputs ≠ .tick :: rest) → ∃ t, step s = .next t)

/-- Every step keeps the invariants of the state: R15, R16, R17 (a) to (e), R23, R24 (b), R164 and R210. How the
sequencer holds what remains of its command, and its settle timer, is the model's rendering of R190 (entry 12). -/
def Obligations.StepKeepsInvariants : Prop :=
  ∀ s t : State, Inv s → step s = .next t → Inv t

/-- The invariants hold at reset. -/
def Obligations.ResetHasInvariants : Prop := Inv State.reset

/-! ## Reset -/

/-- What reset leaves (R33, R211; the output lines are 0 by the spec's decision D33). That no stimulus is offered, no pin
operation reported and no step counted are the model's own values (entries 1, 4 and 3). -/
def Obligations.ResetValues : Prop :=
  State.reset.pstate = .waitingForStatus ∧ State.reset.status = 0x00#8 ∧ State.reset.data1 = 0x00#8 ∧
  State.reset.data2 = 0x00#8 ∧ State.reset.evcnt = 0 ∧ State.reset.hreg = 0#24 ∧
  (∀ c : TimerCh, (cacheGet State.reset.cache c).lsbc = 0x00#8 ∧ (cacheGet State.reset.cache c).msbc = 0x00#8 ∧
    (cacheGet State.reset.cache c).lsbv = false ∧ (cacheGet State.reset.cache c).msbv = false) ∧
  State.reset.pins.csn = true ∧ State.reset.pins.wrn = true ∧ State.reset.pins.a = 0b00#2 ∧
  State.reset.pins.d = 0x00#8 ∧ State.reset.seq = .idle ∧ State.reset.outValid = false ∧
  State.reset.evValid = false ∧ State.reset.regStatusValid = false ∧ State.reset.busy = false ∧
  State.reset.voice.notesHeld = 0 ∧ State.reset.voice.pitchBendValue = 0 ∧
  State.reset.voice.baseFrequency = Config.params.fQuiescent ∧
  State.reset.voice.targetFrequency = Config.params.fQuiescent ∧
  State.reset.voice.actualFrequency = Config.params.fQuiescent ∧
  State.reset.outCode = 0#2 ∧ State.reset.evKind = 0#5 ∧ State.reset.evChannel = 0#4 ∧ State.reset.evData1 = 0x00#8 ∧
  State.reset.evData2 = 0x00#8 ∧ State.reset.evRegistered = false ∧ State.reset.regStatus = 0#2 ∧
  State.reset.inputs = [] ∧ State.reset.pinOps = [] ∧ State.reset.cycle = 0

/-- RESET gives every piece of state its reset value in every state, a bus sequence in progress included (R270, R272).
That the companion is reset with the blocks, and that the schedule and the count of steps, which are the model's own, go
on, is entry 11. -/
def Obligations.ResetFromAnyState : Prop :=
  ∀ s : State, exec .reset s = .next { State.reset with inputs := s.inputs, cycle := s.cycle }

/-- On a clock edge with `rst = 1` the other inputs are ignored, whatever the state (R270). That the companion is reset
with the blocks, and that the schedule and the count of steps go on, is entry 11. -/
def Obligations.ResetWinsOnItsEdge : Prop :=
  ∀ (s : State) (rx : Option Byte) (reg : Option (BitVec 6)) (cmd : Option (BitVec 18)) (hold : Bool)
    (rest : List Stimulus),
    s.inputs = .clock { rst := true, rx := rx, reg := reg, cmd := cmd, hold := hold } :: rest →
    step s = .next { State.reset with inputs := rest, cycle := s.cycle + 1 }

/-! ## Status bytes -/

/-- NOTE_OFF, NOTE_ON, POLY_AFTERTOUCH, CONTROL_CHANGE, PROGRAM_CHANGE, CHANNEL_AFTERTOUCH, PITCH_BEND status bytes: the
byte is recorded, the stored bytes are cleared, `PSTATE` awaits the first data byte, the outcome is `OUT_NONE` without
an event, and nothing else changes, in every state (R120 to R126). The `PSTATE` codes are the spec's decision D5, the
clearing of the stored bytes its D10. -/
def Obligations.ChannelVoiceStatusBytesRecord : Prop :=
  channelVoiceDoes 0x8#4 .noteOff false 1#4 .noteOff ∧
  channelVoiceDoes 0x9#4 .noteOn false 3#4 .noteOn ∧
  channelVoiceDoes 0xA#4 .polyAftertouch false 5#4 .polyAftertouch ∧
  channelVoiceDoes 0xB#4 .controlChange false 7#4 .controlChange ∧
  channelVoiceDoes 0xC#4 .programChange true 9#4 .programChange ∧
  channelVoiceDoes 0xD#4 .channelAftertouch true 11#4 .channelAftertouch ∧
  channelVoiceDoes 0xE#4 .pitchBend false 13#4 .pitchBend

/-- SC_F0 to SC_F7: the byte is recorded, the stored bytes are cleared, `PSTATE` becomes `WaitingForStatus`, the outcome
is `OUT_NONE` without an event, and nothing else changes, in every state (R101 to R108). The state after the byte is the
spec's decision D8. -/
def Obligations.SystemCommonBytesAreAbsorbed : Prop :=
  systemCommonDoes 0xF0#8 .scF0 ∧ systemCommonDoes 0xF1#8 .scF1 ∧ systemCommonDoes 0xF2#8 .scF2 ∧
  systemCommonDoes 0xF3#8 .scF3 ∧ systemCommonDoes 0xF4#8 .scF4 ∧ systemCommonDoes 0xF5#8 .scF5 ∧
  systemCommonDoes 0xF6#8 .scF6 ∧ systemCommonDoes 0xF7#8 .scF7

/-- RT_F8 to RT_FF: the event of kind code 16 to 23 is dispatched with zero fields and counted, the outcome is
`OUT_DISPATCHED`, the output lines carry both, and nothing else changes, in every state (R111 to R118; R18, R19, R70). The
kind codes are the spec's decision D4, the
zero fields its D14. -/
def Obligations.RealTimeBytesDispatchAtOnce : Prop :=
  realTimeDoes 0xF8#8 0#3 16#5 .rtF8 ∧ realTimeDoes 0xF9#8 1#3 17#5 .rtF9 ∧ realTimeDoes 0xFA#8 2#3 18#5 .rtFA ∧
  realTimeDoes 0xFB#8 3#3 19#5 .rtFB ∧ realTimeDoes 0xFC#8 4#3 20#5 .rtFC ∧ realTimeDoes 0xFD#8 5#3 21#5 .rtFD ∧
  realTimeDoes 0xFE#8 6#3 22#5 .rtFE ∧ realTimeDoes 0xFF#8 7#3 23#5 .rtFF

/-! ## Data bytes -/

/-- A data byte with no message in progress, or in one of the two unreachable states, is discarded: outcome `OUT_NONE`,
no event, nothing else changes (R130, R131, R150). -/
def Obligations.StrayDataByteIsDiscarded : Prop :=
  ∀ (v : BitVec 7) (s : State),
    s.pstate = .waitingForStatus ∨ s.pstate = .error ∨ s.pstate = .awaitSecond .programChange ∨
      s.pstate = .awaitSecond .channelAftertouch →
    exec (.data v) s = .next { s with outPort := .reports .outNone, evPort := .quiet }

/-- The first data byte of a two-data-byte message is stored, with its bit 7 zero, and the second is awaited; nothing
else changes (R132). -/
def Obligations.FirstDataByteIsStored : Prop :=
  ∀ (v : BitVec 7) (k : CvKind) (s : State),
    k ∈ [CvKind.noteOff, .noteOn, .polyAftertouch, .controlChange, .pitchBend] → s.pstate = .awaitFirst k →
    exec (.data v) s = .next { s with
      data1 := v.zeroExtend 8, pstate := .awaitSecond k, outPort := .reports .outNone, evPort := .quiet }

/-- The second data byte completes a two-data-byte message: the step itself, and the property of whole messages, from
any state, that one event of the matching kind with the channel and both bytes is dispatched (R147). The state after the
message is either value of `RS_MODE` (the spec's decision D7). -/
def Obligations.SecondDataByteCompletes : Prop :=
  ∀ (k : CvKind), k ∈ [CvKind.noteOff, .noteOn, .polyAftertouch, .controlChange, .pitchBend] →
    (∀ (v : BitVec 7) (s : State), s.pstate = .awaitSecond k →
      exec (.data v) s = .next (completed k s.data1 (v.zeroExtend 8) s)) ∧
    (∀ (ch : BitVec 4) (d1 d2 : BitVec 7) (s : State),
      feedEvents [statusByte k ch, d1.zeroExtend 8, d2.zeroExtend 8] s =
        [{ kind := .cv k, channel := ch, data1 := d1.zeroExtend 8, data2 := d2.zeroExtend 8
           registered := s.hreg.getLsbD (cvCode k).toNat }] ∧
      feedOutcomes [statusByte k ch, d1.zeroExtend 8, d2.zeroExtend 8] s = [.outNone, .outNone, .outDispatched] ∧
      ∃ t, feed [statusByte k ch, d1.zeroExtend 8, d2.zeroExtend 8] s = .next t ∧ t.pstate = afterMessage k ∧
        t.status = statusByte k ch ∧ t.data1 = 0x00#8 ∧ t.data2 = 0x00#8 ∧
        t.evcnt = (s.evcnt + 1) % 2 ^ Config.params.evcntW)

/-- The data byte of PROGRAM_CHANGE and CHANNEL_AFTERTOUCH completes the message at once with zero as the unused second
byte (R148). -/
def Obligations.OnlyDataByteCompletes : Prop :=
  ∀ (v : BitVec 7) (k : CvKind) (s : State),
    k = .programChange ∨ k = .channelAftertouch → s.pstate = .awaitFirst k →
    exec (.data v) s = .next (completed k (v.zeroExtend 8) 0x00#8 s)

/-! ## Byte streams -/

/-- Real-time bytes anywhere in a stream do not disturb it: with them taken out, the stream ends with the same `PSTATE`,
`STATUS`, `DATA1`, `DATA2` and `HREG` and dispatches the same other events; they add one to `EVCNT` each, modulo
`2^EVCNT_W` (R110, R79). The counter begins in its range, which is part of the invariant (R15). -/
def Obligations.RealTimeBytesAreTransparent : Prop :=
  ∀ (bs : List Byte) (s : State), counterInRange s → ∃ t u : State,
    feed bs s = .next t ∧ feed (bs.filter fun b => !isRealTime b) s = .next u ∧
    t.pstate = u.pstate ∧ t.status = u.status ∧ t.data1 = u.data1 ∧ t.data2 = u.data2 ∧ t.hreg = u.hreg ∧
    (feedEvents bs s).filter (fun e => !isRealTimeEvent e) = feedEvents (bs.filter fun b => !isRealTime b) s ∧
    t.evcnt = (u.evcnt + bs.countP isRealTime) % 2 ^ Config.params.evcntW

/-- `EVCNT` counts the events a stream dispatches, modulo `2^EVCNT_W`, and they are as many as its outcomes
`OUT_DISPATCHED`; one outcome is reported for each byte (R163). The counter begins in its range, which is part of the
invariant (R15). While a port reports, its valid line is 1 and its other lines carry the report, with the codes of R70 and
the event's kind code; while it does not, its valid line is 0 (R18, R19, R26). -/
def Obligations.EventCounterCountsDispatches : Prop :=
  (∀ (bs : List Byte) (s : State), counterInRange s → ∃ t : State, feed bs s = .next t ∧
    t.evcnt = (s.evcnt + (feedEvents bs s).length) % 2 ^ Config.params.evcntW ∧
    (feedEvents bs s).length = (feedOutcomes bs s).count .outDispatched ∧
    (feedOutcomes bs s).length = bs.length) ∧
  (outCodeBits .outNone = 0#2 ∧ outCodeBits .outDispatched = 1#2 ∧ outCodeBits .eMidiBadChannelState = 2#2 ∧
    outCodeBits .eMidiBadEventHandler = 3#2) ∧
  ∀ s : State,
    (∀ o, s.outPort = .reports o → s.outValid = true ∧ s.outCode = outCodeBits o) ∧
    (∀ e, s.evPort = .reports e → s.evValid = true ∧ s.evKind = kindCode e.kind ∧ s.evChannel = e.channel ∧
      s.evData1 = e.data1 ∧ s.evData2 = e.data2 ∧ s.evRegistered = e.registered) ∧
    (∀ o, s.regPort = .reports o → s.regStatusValid = true ∧ s.regStatus = outCodeBits o) ∧
    ((∀ o, s.outPort ≠ .reports o) → s.outValid = false) ∧ ((∀ e, s.evPort ≠ .reports e) → s.evValid = false) ∧
    ((∀ o, s.regPort ≠ .reports o) → s.regStatusValid = false)

/-- No stream raises an error, in any state, and none leads into `Error` from a state that is not (R98, R241). -/
def Obligations.NoStreamRaisesAnError : Prop :=
  ∀ (bs : List Byte) (s : State),
    (∀ o ∈ feedOutcomes bs s, o = .outNone ∨ o = .outDispatched) ∧
    ∃ t : State, feed bs s = .next t ∧ (s.pstate ≠ .error → t.pstate ≠ .error)

/-- In `Error` data bytes are discarded and real-time bytes dispatched, and `Error` stays; a system-common status byte
leaves it for `WaitingForStatus`, and a channel-voice status byte resumes decoding: the message that begins there is
dispatched (R99, R119 (c), R131). -/
def Obligations.ErrorIsLeftByAStatusByte : Prop :=
  ∀ (bs : List Byte) (k : CvKind) (ch : BitVec 4) (d1 d2 : BitVec 7) (n : BitVec 3) (s : State),
    s.pstate = .error → (∀ b ∈ bs, b.toNat ≤ 0x7F ∨ 0xF8 ≤ b.toNat) →
    (∃ t, feed bs s = .next t ∧ t.pstate = .error ∧ t.status = s.status ∧ t.hreg = s.hreg) ∧
    (feedEvents bs s).map Event.kind = (bs.filter isRealTime).map (fun b => .rt (b.extractLsb' 0 3)) ∧
    (∃ t, feed (bs ++ [scByte n]) s = .next t ∧ t.pstate = .waitingForStatus ∧ t.status = scByte n ∧
      t.outPort = .reports .outNone ∧ t.evPort = .quiet) ∧
    (∃ t, feed (bs ++ messageBytes k ch d1 d2) s = .next t ∧ t.pstate = afterMessage k ∧
      t.status = statusByte k ch) ∧
    (feedEvents (bs ++ messageBytes k ch d1 d2) s).filter (fun e => !isRealTimeEvent e) =
      [{ kind := .cv k, channel := ch, data1 := dataOf d1
         data2 := if oneDataByte k then 0#8 else dataOf d2
         registered := s.hreg.getLsbD (cvCode k).toNat }]

/-- A channel-voice or system-common status byte that arrives while a message is in progress, at its first data byte or
at its second, drops it: outcome `OUT_NONE`, no event, `EVCNT` unchanged, the stored byte cleared; and over a stream only
the message that follows is dispatched, whatever its kind, the same one included (R92, R93). -/
def Obligations.StatusByteDropsHalfAMessage : Prop :=
  (∀ (k j : CvKind) (ch : BitVec 4) (n : BitVec 3) (s : State),
    s.pstate = .awaitFirst k ∨ s.pstate = .awaitSecond k →
    (∃ t, runFrame (.rx (statusByte j ch)) s = .next t ∧ t.pstate = .awaitFirst j ∧ t.status = statusByte j ch ∧
      t.data1 = 0x00#8 ∧ t.outPort = .reports .outNone ∧ t.evPort = .quiet ∧ t.evcnt = s.evcnt) ∧
    (∃ t, runFrame (.rx (scByte n)) s = .next t ∧ t.pstate = .waitingForStatus ∧ t.status = scByte n ∧
      t.data1 = 0x00#8 ∧ t.outPort = .reports .outNone ∧ t.evPort = .quiet ∧ t.evcnt = s.evcnt)) ∧
  ∀ (k j : CvKind) (ch ch' : BitVec 4) (half : List (BitVec 7)) (cut : List (BitVec 3)) (e1 e2 : BitVec 7) (s : State),
    half.length < (runBytes k 0#7 0#7).length →
    feedEvents (statusByte k ch :: half.map dataOf ++ cut.map scByte ++ messageBytes j ch' e1 e2) s =
      [{ kind := .cv j, channel := ch', data1 := dataOf e1, data2 := if oneDataByte j then 0#8 else dataOf e2
         registered := s.hreg.getLsbD (cvCode j).toNat }]

/-- After a system-common status byte every data byte is discarded: no event, no count, `WaitingForStatus` with the byte
in `STATUS` (R100, R101, R108). -/
def Obligations.SystemCommonDiscardsData : Prop :=
  ∀ (n : BitVec 3) (vs : List (BitVec 7)) (s : State),
    feedEvents (scByte n :: vs.map dataOf) s = [] ∧
    ∃ t : State, feed (scByte n :: vs.map dataOf) s = .next t ∧ t.pstate = .waitingForStatus ∧
      t.status = scByte n ∧ t.data1 = 0#8 ∧ t.data2 = 0#8 ∧ t.evcnt = s.evcnt

/-- Data bytes that follow a completed message with no status byte between form a second message of the same kind and
channel when `RS_MODE` is `RUNNING`, and are discarded when it is `STRICT` (R80, R145). -/
def Obligations.RunningStatusByMode : Prop :=
  ∀ (k : CvKind) (ch : BitVec 4) (d1 d2 e1 e2 : BitVec 7) (s : State),
    feedEvents (messageBytes k ch d1 d2 ++ runBytes k e1 e2) s =
      [{ kind := .cv k, channel := ch, data1 := dataOf d1, data2 := if oneDataByte k then 0#8 else dataOf d2
         registered := s.hreg.getLsbD (cvCode k).toNat }] ++
      (if Config.params.rsMode = .running then
        [{ kind := .cv k, channel := ch, data1 := dataOf e1, data2 := if oneDataByte k then 0#8 else dataOf e2
           registered := s.hreg.getLsbD (cvCode k).toNat }]
       else [])

/-- A registration anywhere before the completing data byte of a message, between the status byte and the first data byte
or between the two data bytes, of any channel-voice kind, decides how that message's event is marked and changes nothing
else of the message: the table is read at dispatch time (R53). -/
def Obligations.RegistrationInsideAMessage : Prop :=
  ∀ (k : CvKind) (ch : BitVec 4) (d1 d2 : BitVec 7) (en : Bool) (before after : List Byte) (s : State),
    before ++ after = messageBytes k ch d1 d2 → after ≠ [] →
    ∃ s₁ s₂ s₃ : State, feed before s = .next s₁ ∧
      runFrame (.reg (BitVec.ofBool en ++ kindCode (.cv k))) s₁ = .next s₂ ∧
      s₂.pstate = s₁.pstate ∧ s₂.data1 = s₁.data1 ∧ s₂.status = s₁.status ∧
      feed after s₂ = .next s₃ ∧ s₃.pstate = afterMessage k ∧ feedEvents before s = [] ∧
      feedEvents after s₂ =
        [{ kind := .cv k, channel := ch, data1 := dataOf d1, data2 := if oneDataByte k then 0#8 else dataOf d2
           registered := en }]

/-! ## Registration -/

/-- REGISTER and UNREGISTER of a kind in range, the words with enable bit 1 and 0: the slot, and no other, becomes 1 or
0, the status is `OK`, code 0, and nothing else changes; the worked example of the rule (R165). Which codes are in range,
those of the system-common kinds among them, is the spec's decision D13. -/
def Obligations.RegistrationWritesOneSlot : Prop :=
  (∀ (k : BitVec 5) (s : State), (k.toNat ≤ 6 ∨ 8 ≤ k.toNat ∧ k.toNat ≤ 23) →
    decode (.reg (1#1 ++ k)) = .ok (.register k) ∧ decode (.reg (0#1 ++ k)) = .ok (.unregister k) ∧
    (∃ h : BitVec 24, exec (.register k) s = .next { s with hreg := h, regPort := .reports .outNone } ∧
      ∀ j, h.getLsbD j = if j = k.toNat then true else s.hreg.getLsbD j) ∧
    (∃ h : BitVec 24, exec (.unregister k) s = .next { s with hreg := h, regPort := .reports .outNone } ∧
      ∀ j, h.getLsbD j = if j = k.toNat then false else s.hreg.getLsbD j)) ∧
  outCodeBits .outNone = 0#2 ∧
  ∃ t, exec (.register 1#5) State.reset = .next t ∧ t.hreg.getLsbD 1 = true ∧
    feedEvents [0x90#8, 0x40#8, 0x7F#8] t =
      [{ kind := .cv .noteOn, channel := 0#4, data1 := 0x40#8, data2 := 0x7F#8, registered := true }]

/-- REGISTER_BAD_KIND_7 and REGISTER_BAD_KIND_24_31: status code 3, `E_MIDI_BAD_EVENT_HANDLER`, whatever the enable bit,
and nothing else changes; the words are those with kind code 7 and with kind codes 24 to 31 (R166; which codes those are
is the spec's decision D13). -/
def Obligations.OutOfRangeRegistrationFails : Prop :=
  outCodeBits .eMidiBadEventHandler = 3#2 ∧
  ∀ (en : BitVec 1) (low : BitVec 3) (s : State),
    decode (.reg (en ++ 7#5)) = .ok (.registerBadKind7 en) ∧
    decode (.reg (en ++ (0b11#2 ++ low))) = .ok (.registerBadKind24To31 en low) ∧
    exec (.registerBadKind7 en) s = .next { s with regPort := .reports .eMidiBadEventHandler } ∧
    exec (.registerBadKind24To31 en low) s = .next { s with regPort := .reports .eMidiBadEventHandler }

/-! ## The timer programmer -/

/-- WRITE_CHANNEL to channel 0, 1 or 2 with `SEQ` idle: with a dirty byte, chip-select, the control word to the control
register, the dirty bytes LSB before MSB to the channel's address, chip-select released; the pins are as these operations
leave them, the cache of the channel holds the requested bytes as valid, and nothing else changes (R185); for any
parameters, and for the machine's own, whose addresses and fixed bits stand at the spec's defaults, the model's
presumption (entry 6, D22, D23). Chip-select is the spec's D20. -/
def Obligations.WriteChannelWritesDirtyBytes : Prop :=
  ∀ (c : BitVec 2) (ch : TimerCh) (l m : Byte) (dl dm : Bool) (s : State),
    s.seq = .idle → c.toNat = ch.val →
    dl = (!(cacheGet s.cache ch).lsbv || (cacheGet s.cache ch).lsbc != l) →
    dm = (!(cacheGet s.cache ch).msbv || (cacheGet s.cache ch).msbc != m) → (dl || dm) = true →
    let high : Byte :=
      c.zeroExtend 8 <<< 6 ||| (if dm then 2#8 else 0#8) <<< 4 ||| (if dl then 1#8 else 0#8) <<< 4
    let ops := fun (p : Params) =>
      [.csLow] ++ oneWrite p.addrCtrl (high ||| p.modeBits.zeroExtend 8 <<< 1 ||| p.bcdBit.zeroExtend 8) ++
      (if dl then oneWrite (p.addrCnt ch) l else []) ++ (if dm then oneWrite (p.addrCnt ch) m else []) ++ [.csHigh]
    let written := fun (ops : List PinOp) => { s with
      pins := pinOpsOn ops s.pins, pinOps := ops
      cache := cacheSet s.cache ch { lsbc := l, msbc := m, lsbv := true, msbv := true } }
    (∀ p : Params, execWith p (.writeChannel c l m) s = .next (written (ops p))) ∧
    exec (.writeChannel c l m) s = .next (written ([.csLow] ++ oneWrite 3#2 (high ||| 0x06#8) ++
      (if dl then oneWrite c l else []) ++ (if dm then oneWrite c m else []) ++ [.csHigh]))

/-- WRITE_CHANNEL with nothing dirty is skipped whole: no pin operation, no state changed, at the function level and on
a clock edge, where `SEQ` stays `Idle` (R183). -/
def Obligations.NothingDirtyIsSkipped : Prop :=
  ∀ (c : BitVec 2) (ch : TimerCh) (l m : Byte) (s : State),
    s.seq = .idle → c.toNat = ch.val →
    cacheGet s.cache ch = { lsbc := l, msbc := m, lsbv := true, msbv := true } →
    exec (.writeChannel c l m) s = .next { s with pinOps := [] } ∧
    ∀ hold, timerEdge Config.params hold (some (c ++ (l ++ m))) s = s

/-- WRITE_CHANNEL_INVALID, channel id 3, is silently ignored in every state: no pin operation, no cache change, no
status, no error; on a clock edge `SEQ` stays `Idle` (R180). -/
def Obligations.ChannelThreeIsIgnored : Prop :=
  ∀ (l m : Byte) (s : State),
    decode (.cmd (3#2 ++ (l ++ m))) = .ok (.writeChannelInvalid l m) ∧
    exec (.writeChannelInvalid l m) s = .next { s with pinOps := [] } ∧
    (s.seq = .idle → ∀ hold, timerEdge Config.params hold (some (3#2 ++ (l ++ m))) s = s)

/-- WRITE_CHANNEL offered while a bus sequence runs is not accepted and has no effect, as a call of `exec` and on a clock
edge (R189). -/
def Obligations.BusyTurnsCommandsAway : Prop :=
  ∀ (c : BitVec 2) (l m : Byte) (w : BitVec 18) (hold : Bool) (s : State), s.seq ≠ .idle →
    exec (.writeChannel c l m) s = .next { s with pinOps := [] } ∧
    timerEdge Config.params hold (some w) s = timerEdge Config.params hold none s

/-- CONTROL_WORD goes out as part of a command, and only there (R32, R78): while the command in progress has its control
word to emit, to address 3 with the access mode of its dirty bytes, what remains of that register write is performed and
the data bytes are left to the sequencer; with the bus idle, with the control word already out, or for any other byte,
nothing goes out. That the row stands for this part of a command is the model's choice (entry 8; for words that R78 never
emits, entry 16); address 3 and the fixed bits are the spec's defaults (entry 6). -/
def Obligations.ControlWordIsEmitted : Prop :=
  (∀ (c am : BitVec 2) (mode : BitVec 3) (bcd : BitVec 1) (s : State), s.seq = .idle →
    exec (.controlWord c am mode bcd) s = .next { s with pinOps := [] }) ∧
  ∀ (c : BitVec 2) (ch : TimerCh) (l m : Byte) (dl dm : Bool) (gone left : List PinOp) (w : Nat) (s : State),
    let am : BitVec 2 := if dm then (if dl then 3#2 else 2#2) else 1#2
    let b : Byte := c.zeroExtend 8 <<< 6 ||| am.zeroExtend 8 <<< 4 ||| 0x06#8
    let x : Pending := { c := ch, l := l, m := m, dl := dl, dm := dm }
    let data := (if dl then oneWrite c l else []) ++ (if dm then oneWrite c m else []) ++ [.csHigh]
    c.toNat = ch.val → (dl || dm) = true → gone ++ left = [.csLow] ++ oneWrite 3#2 b →
    s.seq = .busy x (left ++ data) w →
    (left ≠ [] → exec (.controlWord c am 3#3 0#1) s = .next { s with
      pins := pinOpsOn left s.pins, pinOps := left, seq := .busy x data 0 }) ∧
    (∀ (rest : List PinOp) (c' am' : BitVec 2) (mode : BitVec 3) (bcd : BitVec 1), rest <:+ data →
      exec (.controlWord c' am' mode bcd) { s with seq := .busy x rest w } =
        .next { s with seq := .busy x rest w, pinOps := [] }) ∧
    ∀ (c' am' : BitVec 2) (mode : BitVec 3) (bcd : BitVec 1), (c', am', mode, bcd) ≠ (c, am, 3#3, 0#1) →
      exec (.controlWord c' am' mode bcd) s = .next { s with pinOps := [] }

/-- After any command that is not ignored the cache holds the requested bytes as valid, and the other channels' entries
are untouched (R186). -/
def Obligations.CacheHoldsTheRequest : Prop :=
  ∀ (c : BitVec 2) (ch : TimerCh) (l m : Byte) (s : State), s.seq = .idle → c.toNat = ch.val →
    ∃ t, exec (.writeChannel c l m) s = .next t ∧
      cacheGet t.cache ch = { lsbc := l, msbc := m, lsbv := true, msbv := true } ∧
      ∀ other, other ≠ ch → cacheGet t.cache other = cacheGet s.cache other

/-- The same command twice writes on the first call only: the second performs no pin operation and changes no state
(R187). -/
def Obligations.WriteTwiceWritesOnce : Prop :=
  ∀ (c : BitVec 2) (l m : Byte) (s : State), s.seq = .idle → c ≠ 3#2 →
    ∃ t, exec (.writeChannel c l m) s = .next t ∧
      exec (.writeChannel c l m) t = .next { t with pinOps := [] } ∧
      (∀ e, s.cache = { c0 := e, c1 := e, c2 := e } → e.lsbv = false → e.msbv = false → s.pins.wrn = true →
        (registerWrites t.pinOps s.pins).length = 3)

/-- The register writes of one command, as a monitor of the write strobe sees them: none, or first a control word of
R75 to the control register, for the command's channel and with the access mode of what follows, then the dirty bytes to
the channel's counter; so no control word for channel 3 and none with access mode 0 ever appears (R78, R188, R256). -/
def Obligations.RegisterWritesOfACommand : Prop :=
  ∀ (c : BitVec 2) (l m : Byte) (s t : State), s.seq = .idle → s.pins.wrn = true →
    exec (.writeChannel c l m) s = .next t →
    registerWrites t.pinOps s.pins = [] ∨
    ∃ cw ∈ nineControlWords, cw.extractLsb' 6 2 = c ∧
      ((cw.extractLsb' 4 2 = 1#2 ∧ registerWrites t.pinOps s.pins = [(3#2, cw), (c, l)]) ∨
       (cw.extractLsb' 4 2 = 2#2 ∧ registerWrites t.pinOps s.pins = [(3#2, cw), (c, m)]) ∨
       (cw.extractLsb' 4 2 = 3#2 ∧ registerWrites t.pinOps s.pins = [(3#2, cw), (c, l), (c, m)]))

/-- After any list of commands the entry of a channel is that of the last command to it, both bytes valid, and the entry
it began with if there was none (R24 (a), R20). -/
def Obligations.CacheRemembersTheLastCommand : Prop :=
  ∀ (cs : List (BitVec 2 × Byte × Byte)) (c : TimerCh) (s : State), s.seq = .idle →
    cacheGet (writeAll Config.params cs s).cache c =
      match lastCommand c cs with
      | some (l, m) => { lsbc := l, msbc := m, lsbv := true, msbv := true }
      | none => cacheGet s.cache c

/-- The cycle-level rendering of a command does what its function level does: offered on one clock edge with nothing
else and no edge held, it performs over the edges exactly the pin operations of `exec`, is busy with the cache untouched for exactly
`n(1 + 2 T_SETTLE)` cycles, where `n` is the number of registers it writes, and ends with the pins and the cache of
`exec` and `SEQ` idle; the decoder and the companion are as they were (R190, R186, R5). The cycle counts are one legal
schedule, the model's choice (entry 12). -/
def Obligations.CycleLevelRefinesFunctionLevel : Prop :=
  ∀ (c : BitVec 2) (ch : TimerCh) (l m : Byte) (s u : State),
    s.seq = .idle → s.inputs = [.clock (offering (c ++ (l ++ m)))] → c.toNat = ch.val →
    0 < writesOf (pendingOf s.cache ch l m) → exec (.writeChannel c l m) s = .next u →
    let n := writesOf (pendingOf s.cache ch l m) * (1 + 2 * Config.params.tSettle)
    (∀ k, k < n → ∃ t, Host.Core.run Sys2Proof.core (1 + k) s = .next t ∧ t.busy = true ∧ t.cache = s.cache) ∧
    opsOfRun (1 + n) s = u.pinOps ∧
    ∃ t, Host.Core.run Sys2Proof.core (1 + n) s = .next t ∧ t.seq = .idle ∧ t.pins = u.pins ∧ t.cache = u.cache ∧
      t.pstate = s.pstate ∧ t.status = s.status ∧ t.data1 = s.data1 ∧ t.data2 = s.data2 ∧ t.evcnt = s.evcnt ∧
      t.hreg = s.hreg ∧ t.voice = s.voice ∧ t.inputs = []

/-! ## The whole machine -/

/-- The two blocks share no state (R50): an instruction of the decoder leaves the timer programmer as it was, one of the
timer programmer leaves the decoder as it was, and neither touches the companion or the schedule. -/
def Obligations.BlocksLeaveEachOtherAlone : Prop :=
  ∀ (i : Instr) (s t : State), exec i s = .next t → i ≠ .reset →
    t.voice = s.voice ∧ t.inputs = s.inputs ∧ (forDecoder i = true ∨ forTimer i = true) ∧
    (forDecoder i = true → sameTimer t s) ∧ (forTimer i = true → sameDecoder t s)

/-- What an instruction does to its own block depends on that block alone (R50): two states that agree on it are led to
states that agree on it. -/
def Obligations.BlocksLearnNothingOfEachOther : Prop :=
  ∀ (i : Instr) (s₁ s₂ t₁ t₂ : State), exec i s₁ = .next t₁ → exec i s₂ = .next t₂ →
    (forDecoder i = true → sameDecoder s₁ s₂ → sameDecoder t₁ t₂) ∧
    (forTimer i = true → sameTimer s₁ s₂ → sameTimer t₁ t₂)

/-- Who writes what: `HREG` only REGISTER, UNREGISTER and reset (R16), `EVCNT` only a dispatch, by one, and reset (R15),
the cache only WRITE_CHANNEL and reset (R20), `STATUS` only channel-voice and system-common status bytes and reset
(R12). -/
def Obligations.OnlyTheseInstructionsWrite : Prop :=
  ∀ (i : Instr) (s t : State), exec i s = .next t → i ≠ .reset →
    (t.hreg ≠ s.hreg → ∃ k, i = .register k ∨ i = .unregister k) ∧
    (t.evcnt ≠ s.evcnt → t.evcnt = (s.evcnt + 1) % 2 ^ Config.params.evcntW ∧ t.outPort = .reports .outDispatched ∧
      (i ∈ realTimeInstrs ∨ ∃ v, i = .data v)) ∧
    (t.cache ≠ s.cache → ∃ c l m, i = .writeChannel c l m) ∧
    (t.status ≠ s.status → i ∈ systemCommonInstrs ∨ ∃ ch, i ∈ channelVoiceInstrs ch)

/-! ## The companion -/

/-- The divisor helper: integer division, the low byte and the next byte of it; no result for frequency 0; the worked
example of the rule (R195, R196); and SET_FREQ is the timer command of these bytes for each of the four channel ids, the
ignored one for 3 (R81, R82 (b), R197). -/
def Obligations.DivisorAndItsBytes : Prop :=
  ∀ p : Params,
    (∀ f, 0 < f → divisor p f = some (p.fMaster / f)) ∧ divisor p 0 = none ∧
    (∀ d, (divisorLsb d).toNat = d % 256 ∧ (divisorMsb d).toNat = d / 256 % 256) ∧
    (p.fMaster = 1000000 →
      divisor p 440 = some 2272 ∧ divisorLsb 2272 = 0xE0#8 ∧ divisorMsb 2272 = 0x08#8) ∧
    (∀ c, setFreq p c 0 = none) ∧
    ∀ (c : BitVec 2) (f : Nat), 0 < f → ∃ w, setFreq p c f = some w ∧
      decode w = .ok (if c = 3#2 then .writeChannelInvalid (divisorLsb (p.fMaster / f)) (divisorMsb (p.fMaster / f))
        else .writeChannel c (divisorLsb (p.fMaster / f)) (divisorMsb (p.fMaster / f)))

/-- `ComputeFrequency` has the three properties of R212: the base inside the deadband and at bend 0, at least the floor
below it, at most the ceiling above it. -/
def Obligations.ComputeFrequencyProperties : Prop :=
  ∀ (p : Params) (base : Nat) (bend : Int),
    computeFrequency p base 0 = base ∧
    (-(p.deadLow : Int) ≤ bend → bend ≤ (p.deadHigh : Int) → computeFrequency p base bend = base) ∧
    (bend < -(p.deadLow : Int) → p.freqFloor ≤ computeFrequency p base bend) ∧
    ((p.deadHigh : Int) < bend → computeFrequency p base bend ≤ p.freqCeiling)

/-- The pitch-bend value: data byte one is the low half, the range is -8192 to 8191, and the three examples of the rule
(R219). The order of the halves is general knowledge to the spec (GK7; entry 15). -/
def Obligations.PitchBendAssembly : Prop :=
  (∀ d1 d2 : BitVec 7, bendValue (dataOf d1) (dataOf d2) = 128 * (d2.toNat : Int) + d1.toNat - 8192) ∧
  (∀ b1 b2 : Byte, -8192 ≤ bendValue b1 b2 ∧ bendValue b1 b2 ≤ 8191) ∧
  bendValue 0x00#8 0x40#8 = 0 ∧ bendValue 0x00#8 0x00#8 = -8192 ∧ bendValue 0x7F#8 0x7F#8 = 8191

/-- `noteOn(base)`: the count goes up, the frequencies become the new one, and its divisor is handed to the timer
programmer (R214, R218); frequency 0 has no divisor and the call is refused (R196). That the sounding frequency jumps
whatever the glide setting is the spec's decision D30; that the command is offered at the front of the schedule is the
model's choice (entry 13). -/
def Obligations.NoteOnReprograms : Prop :=
  ∀ (p : Params) (base : Nat) (s : State),
    let f := computeFrequency p base s.voice.pitchBendValue
    (f = 0 → noteOn p base s = .refused .divisorOfZero) ∧
    (0 < f → noteOn p base s = .next { s with
      voice := { s.voice with
        notesHeld := s.voice.notesHeld + 1, baseFrequency := base, targetFrequency := f, actualFrequency := f }
      inputs := .call (.cmd (cmdWord p.voiceChannel (BitVec.ofNat 8 (p.fMaster / f))
        (BitVec.ofNat 8 (p.fMaster / f / 256)))) :: s.inputs })

/-- Note-offs: the count never goes below zero, whatever their number, and reaching zero silences the oscillator exactly
once: one command with the silent divisor is offered, and the frequencies become quiescent (R215, R221). That the command
is offered at the front of the schedule is the model's choice (entry 13). -/
def Obligations.NoteOffsSilenceOnce : Prop :=
  ∀ (p : Params) (n : Nat) (s : State),
    (noteOffs p n s).voice.notesHeld = s.voice.notesHeld - n ∧
    (noteOffs p n s).inputs =
      (if 0 < s.voice.notesHeld ∧ s.voice.notesHeld ≤ n then
        [.call (.cmd (cmdWord p.voiceChannel (p.divSilent.extractLsb' 0 8) (p.divSilent.extractLsb' 8 8)))]
       else []) ++ s.inputs ∧
    (0 < s.voice.notesHeld → s.voice.notesHeld ≤ n →
      (noteOffs p n s).voice.baseFrequency = p.fQuiescent ∧ (noteOffs p n s).voice.targetFrequency = p.fQuiescent ∧
      (noteOffs p n s).voice.actualFrequency = p.fQuiescent) ∧
    (s.voice.notesHeld = 0 ∨ n < s.voice.notesHeld →
      (noteOffs p n s).voice = { s.voice with notesHeld := s.voice.notesHeld - n })

/-- A note-on with velocity 0 is treated by the companion identically to a note-off, for the same key and any other, and
an event that is not registered is not acted on (R216, R162). -/
def Obligations.VelocityZeroIsANoteOff : Prop :=
  ∀ (p : Params) (ch ch' : BitVec 4) (key key' vel : Byte) (r : Bool) (s : State),
    sinkEvent p (some { kind := .cv .noteOn, channel := ch, data1 := key, data2 := 0x00#8, registered := r }) s =
      sinkEvent p (some { kind := .cv .noteOff, channel := ch', data1 := key', data2 := vel, registered := r }) s ∧
    sinkEvent p (some { kind := .cv .noteOff, channel := ch', data1 := key', data2 := vel, registered := true }) s =
      .next (noteOff p s) ∧
    ∀ e : Event, e.registered = false → sinkEvent p (some e) s = .next s

/-- A pitch bend changes the bend value; with a note held it also changes the target, and without glide it reprograms at
once, but for frequency 0, which has no divisor (R213, R196; the split by glide is the spec's decision D30). That the
command is offered at the front of the schedule is the model's choice (entry 13). -/
def Obligations.PitchBendUpdates : Prop :=
  ∀ (p : Params) (value : Int) (s : State),
    let f := computeFrequency p s.voice.baseFrequency value
    (s.voice.notesHeld = 0 →
      applyPitchBend p value s = .next { s with voice := { s.voice with pitchBendValue := value } }) ∧
    (0 < s.voice.notesHeld → p.glideEn = true →
      applyPitchBend p value s =
        .next { s with voice := { s.voice with pitchBendValue := value, targetFrequency := f } }) ∧
    (0 < s.voice.notesHeld → p.glideEn = false → f = 0 → applyPitchBend p value s = .refused .divisorOfZero) ∧
    (0 < s.voice.notesHeld → p.glideEn = false → 0 < f →
      applyPitchBend p value s = .next { s with
        voice := { s.voice with pitchBendValue := value, targetFrequency := f, actualFrequency := f }
        inputs := .call (.cmd (cmdWord p.voiceChannel (BitVec.ofNat 8 (p.fMaster / f))
          (BitVec.ofNat 8 (p.fMaster / f / 256)))) :: s.inputs })

/-- The glide tick: nothing unless glide is present, a note is held and the frequencies differ; otherwise the sounding
frequency moves by a tenth of the gap, rounded up, toward the target and is reprogrammed; the step is at least 1 and at
most the gap, and is 1 for a gap of at most 10; a step onto frequency 0 has no divisor and is refused (R220,
R196). That the command is offered at the front of the schedule is the model's choice (entry 13). -/
def Obligations.GlideTickMovesTowardTarget : Prop :=
  ∀ (p : Params) (s : State),
    let a := s.voice.actualFrequency
    let b := s.voice.targetFrequency
    let d := (gap a b + 9) / 10
    (a ≠ b → 1 ≤ d ∧ d ≤ gap a b ∧ (gap a b ≤ 10 → d = 1)) ∧
    (p.glideEn = false ∨ s.voice.notesHeld = 0 ∨ a = b → glideTick p s = .next s) ∧
    (p.glideEn = true → 0 < s.voice.notesHeld → a < b → glideTick p s = .next { s with
      voice := { s.voice with actualFrequency := a + d }
      inputs := .call (.cmd (cmdWord p.voiceChannel (BitVec.ofNat 8 (p.fMaster / (a + d)))
        (BitVec.ofNat 8 (p.fMaster / (a + d) / 256)))) :: s.inputs }) ∧
    (p.glideEn = true → 0 < s.voice.notesHeld → b < a → a - d = 0 → glideTick p s = .refused .divisorOfZero) ∧
    (p.glideEn = true → 0 < s.voice.notesHeld → b < a → 0 < a - d → glideTick p s = .next { s with
      voice := { s.voice with actualFrequency := a - d }
      inputs := .call (.cmd (cmdWord p.voiceChannel (BitVec.ofNat 8 (p.fMaster / (a - d)))
        (BitVec.ofNat 8 (p.fMaster / (a - d) / 256)))) :: s.inputs })

/-- A glide reaches its target: the gap strictly shrinks with every step that is taken, the target is never overshot,
and as many steps as the gap is wide end on the target and stay there (R220). -/
def Obligations.GlideConverges : Prop :=
  ∀ a b : Nat,
    (a ≠ b → gap (glideMove a b) b < gap a b) ∧
    (a ≤ b → a ≤ glideMove a b ∧ glideMove a b ≤ b) ∧ (b ≤ a → b ≤ glideMove a b ∧ glideMove a b ≤ a) ∧
    ∀ n, gap a b ≤ n → (fun x => glideMove x b)^[n] a = b

/-- The companion acts in a step of its own: a turn of the event sink acts on the event presented on the event port, a
tick is the glide tick, each with the machine's parameters. That the schedule says when, and that neither is a clock edge
for a bus sequence in progress, is the model's choice (entries 13 and 21). -/
def Obligations.CompanionActsWhenScheduled : Prop :=
  ∀ (s : State) (rest : List Stimulus),
    let s' : State := { begun s with inputs := rest }
    (s.inputs = .glue :: rest → step s = sinkEvent Config.params s.evPort.report s') ∧
    (s.inputs = .tick :: rest → step s = glideTick Config.params s')

/-- What the event sink does with a registered event: a note-on with velocity not 0 calls `noteOn` with the frequency of
its key, a pitch bend calls `applyPitchBend` with the 14-bit value of its two bytes less 8192, every other kind but
note-on and note-off changes nothing, on any channel; and without an event nothing happens. The routing is the spec's
decision D30 (R217), the order of the halves and the meaning of the note bytes its general knowledge (entry 15). -/
def Obligations.EventsReachTheCompanion : Prop :=
  ∀ (p : Params) (ch : BitVec 4) (d1 d2 : Byte) (s : State),
    let event := fun (k : EvKind) => some { kind := k, channel := ch, data1 := d1, data2 := d2, registered := true }
    (d2 ≠ 0x00#8 → sinkEvent p (event (.cv .noteOn)) s = noteOn p (p.noteFreq (BitVec.ofNat 7 d1.toNat)) s) ∧
    sinkEvent p (event (.cv .noteOff)) s = .next (noteOff p s) ∧
    sinkEvent p (event (.cv .pitchBend)) s =
      applyPitchBend p (128 * ((d2.toNat % 128 : Nat) : Int) + ((d1.toNat % 128 : Nat) : Int) - 8192) s ∧
    (∀ k ∈ [CvKind.polyAftertouch, .controlChange, .programChange, .channelAftertouch],
      sinkEvent p (event (.cv k)) s = .next s) ∧
    (∀ n, sinkEvent p (event (.sc n)) s = .next s ∧ sinkEvent p (event (.rt n)) s = .next s) ∧
    sinkEvent p none s = .next s

/-- The implementation parameters are arguments (R4): decoding, well-formedness, every meaning, the reset state and a step
are functions of any parameters, and the machine is these functions at its own; a run word, a clock edge, offered, idle or
on which a call is held, a turn of the event sink and a tick use the parameters they are given. Which of them a step is, is
as in StepRunsDecodedInstruction (entries 1, 2, 10, 13, 21). -/
def Obligations.ParametersAreArguments : Prop :=
  (∀ f, decode f = decodeWith Config.params f) ∧ (∀ i : Instr, i.wf = i.wfWith Config.params) ∧
  (∀ i s, exec i s = execWith Config.params i s) ∧ State.reset = State.resetWith Config.params ∧
  (∀ s, step s = stepWith Config.params s) ∧
  (∀ (p : Params) (s : State) (f : Frame) (rest : List Stimulus) (i : Instr),
    s.inputs = .call f :: rest → decodeWith p f = .ok i → (needsBus f = true → s.seq = .idle) →
    stepWith p s = execWith p i { begun s with inputs := rest }) ∧
  ∀ (p : Params) (s : State) (rest : List Stimulus),
    (∀ e, s.inputs = .clock e :: rest → stepWith p s = clockEdge p (runFrameWith p) e { begun s with inputs := rest }) ∧
    (s.inputs = [] → stepWith p s = clockEdge p (runFrameWith p) Edge.quiet (begun s)) ∧
    (∀ w, s.inputs = .call (.cmd w) :: rest → s.seq ≠ .idle →
      stepWith p s = clockEdge p (runFrameWith p) Edge.quiet (begun s)) ∧
    (s.inputs = .glue :: rest → stepWith p s = sinkEvent p s.evPort.report { begun s with inputs := rest }) ∧
    (s.inputs = .tick :: rest → stepWith p s = glideTick p { begun s with inputs := rest })

/-- The delays of the bus sequence (R44, R52, R190, R290). After an edge that begins a `Settle`, with `SEQ` still busy,
no pin operation is performed and no pin changes until `T_SETTLE` edges that are not held have passed, the last of which
may perform the next: each `Settle` lasts at least `T_SETTLE` cycles, whatever but reset the edges offer and however
many are held. No edge that lowers the strobe changes address or data, so they are set up at least one cycle before, in
states whose sequencer is in order, which is part of the invariant. A delay longer than it must be delays the sequence
and changes nothing else: edges of which some are held lead to the pins, the cache and the sequencer that as many edges
as were not held lead to, by the same pin operations, and the decoder and the companion are as they were. That a held
edge is named in the schedule is the model's choice (entry 12), and so is that a call, which is at the function level,
is no edge (entries 8 and 21). -/
def Obligations.LongerDelaysOnlyDelay : Prop :=
  (∀ s t : State, isEdge s → step s = .next t → .settle ∈ t.pinOps → t.seq ≠ .idle →
    ∀ es : List Edge, (∀ e ∈ es, e.rst = false) → es.countP (fun e => !e.hold) < Config.params.tSettle →
      opsOfRun es.length { t with inputs := es.map .clock } = [] ∧
      ∃ u : State, Host.Core.run Sys2Proof.core es.length { t with inputs := es.map .clock } = .next u ∧
        u.pins = t.pins ∧ u.cache = t.cache ∧ u.busy = true) ∧
  (∀ s t : State, isEdge s → sequencerInOrder s → step s = .next t → .wrLow ∈ t.pinOps →
    (∀ a, .setAddr a ∉ t.pinOps) ∧ ∀ v, .setData v ∉ t.pinOps) ∧
  ∀ (holds : List Bool) (s u : State),
    s.inputs = holds.map (fun h => .clock (holdEdge h)) →
    u = { s with inputs := List.replicate (holds.count false) (.clock (holdEdge false)) } →
    ∃ t t' : State, Host.Core.run Sys2Proof.core holds.length s = .next t ∧
      Host.Core.run Sys2Proof.core (holds.count false) u = .next t' ∧
      t.seq = t'.seq ∧ t.pins = t'.pins ∧ t.cache = t'.cache ∧
      opsOfRun holds.length s = opsOfRun (holds.count false) u ∧
      t.pstate = s.pstate ∧ t.status = s.status ∧ t.data1 = s.data1 ∧ t.data2 = s.data2 ∧ t.evcnt = s.evcnt ∧
      t.hreg = s.hreg ∧ t.voice = s.voice
end

