-- ==== Sys2Proof/Laws/State.lean ====
section
/-!
SUPPORT. One lemma for each field after each update of the state, so that no later proof unfolds a record update.
-/

namespace Sys2Proof.Machine

/-! The lines of an output port in each of its states (R18, R19, D33). -/

@[simp] theorem Port.valid_cleared {α : Type} : (Port.cleared : Port α).valid = false := rfl
@[simp] theorem Port.valid_quiet {α : Type} : (Port.quiet : Port α).valid = false := rfl
@[simp] theorem Port.valid_reports {α : Type} (a : α) : (Port.reports a).valid = true := rfl
@[simp] theorem Port.report_cleared {α : Type} : (Port.cleared : Port α).report = none := rfl
@[simp] theorem Port.report_quiet {α : Type} : (Port.quiet : Port α).report = none := rfl
@[simp] theorem Port.report_reports {α : Type} (a : α) : (Port.reports a).report = some a := rfl
@[simp] theorem Port.line_cleared {α β : Type} (z w : β) (f : α → β) : (Port.cleared : Port α).line z w f = z := rfl
@[simp] theorem Port.line_quiet {α β : Type} (z w : β) (f : α → β) : (Port.quiet : Port α).line z w f = w := rfl
@[simp] theorem Port.line_reports {α β : Type} (a : α) (z w : β) (f : α → β) :
    (Port.reports a).line z w f = f a := rfl

/-! A new cycle presents no output (R18, R19). -/

@[simp] theorem newCycle_pstate (s : State) : (newCycle s).pstate = s.pstate := rfl
@[simp] theorem newCycle_status (s : State) : (newCycle s).status = s.status := rfl
@[simp] theorem newCycle_data1 (s : State) : (newCycle s).data1 = s.data1 := rfl
@[simp] theorem newCycle_data2 (s : State) : (newCycle s).data2 = s.data2 := rfl
@[simp] theorem newCycle_evcnt (s : State) : (newCycle s).evcnt = s.evcnt := rfl
@[simp] theorem newCycle_hreg (s : State) : (newCycle s).hreg = s.hreg := rfl
@[simp] theorem newCycle_cache (s : State) : (newCycle s).cache = s.cache := rfl
@[simp] theorem newCycle_pins (s : State) : (newCycle s).pins = s.pins := rfl
@[simp] theorem newCycle_seq (s : State) : (newCycle s).seq = s.seq := rfl
@[simp] theorem newCycle_outPort (s : State) : (newCycle s).outPort = .quiet := rfl
@[simp] theorem newCycle_evPort (s : State) : (newCycle s).evPort = .quiet := rfl
@[simp] theorem newCycle_regPort (s : State) : (newCycle s).regPort = .quiet := rfl
@[simp] theorem newCycle_pinOps (s : State) : (newCycle s).pinOps = [] := rfl
@[simp] theorem newCycle_voice (s : State) : (newCycle s).voice = s.voice := rfl
@[simp] theorem newCycle_inputs (s : State) : (newCycle s).inputs = s.inputs := rfl
@[simp] theorem newCycle_cycle (s : State) : (newCycle s).cycle = s.cycle + 1 := rfl

/-! `OUT_NONE` and no event (R91). -/

@[simp] theorem noMessage_pstate (s : State) : (noMessage s).pstate = s.pstate := rfl
@[simp] theorem noMessage_status (s : State) : (noMessage s).status = s.status := rfl
@[simp] theorem noMessage_data1 (s : State) : (noMessage s).data1 = s.data1 := rfl
@[simp] theorem noMessage_data2 (s : State) : (noMessage s).data2 = s.data2 := rfl
@[simp] theorem noMessage_evcnt (s : State) : (noMessage s).evcnt = s.evcnt := rfl
@[simp] theorem noMessage_hreg (s : State) : (noMessage s).hreg = s.hreg := rfl
@[simp] theorem noMessage_cache (s : State) : (noMessage s).cache = s.cache := rfl
@[simp] theorem noMessage_pins (s : State) : (noMessage s).pins = s.pins := rfl
@[simp] theorem noMessage_seq (s : State) : (noMessage s).seq = s.seq := rfl
@[simp] theorem noMessage_outPort (s : State) : (noMessage s).outPort = .reports .outNone := rfl
@[simp] theorem noMessage_evPort (s : State) : (noMessage s).evPort = .quiet := rfl
@[simp] theorem noMessage_regPort (s : State) : (noMessage s).regPort = s.regPort := rfl
@[simp] theorem noMessage_pinOps (s : State) : (noMessage s).pinOps = s.pinOps := rfl
@[simp] theorem noMessage_voice (s : State) : (noMessage s).voice = s.voice := rfl
@[simp] theorem noMessage_inputs (s : State) : (noMessage s).inputs = s.inputs := rfl
@[simp] theorem noMessage_cycle (s : State) : (noMessage s).cycle = s.cycle := rfl

/-! `raise E_MIDI_BAD_CHANNEL_STATE` (R247). -/

@[simp] theorem raise_badChannelState_pstate (s : State) : (raise .badChannelState s).pstate = s.pstate := rfl
@[simp] theorem raise_badChannelState_status (s : State) : (raise .badChannelState s).status = s.status := rfl
@[simp] theorem raise_badChannelState_data1 (s : State) : (raise .badChannelState s).data1 = s.data1 := rfl
@[simp] theorem raise_badChannelState_data2 (s : State) : (raise .badChannelState s).data2 = s.data2 := rfl
@[simp] theorem raise_badChannelState_evcnt (s : State) : (raise .badChannelState s).evcnt = s.evcnt := rfl
@[simp] theorem raise_badChannelState_hreg (s : State) : (raise .badChannelState s).hreg = s.hreg := rfl
@[simp] theorem raise_badChannelState_cache (s : State) : (raise .badChannelState s).cache = s.cache := rfl
@[simp] theorem raise_badChannelState_pins (s : State) : (raise .badChannelState s).pins = s.pins := rfl
@[simp] theorem raise_badChannelState_seq (s : State) : (raise .badChannelState s).seq = s.seq := rfl
@[simp] theorem raise_badChannelState_outPort (s : State) : (raise .badChannelState s).outPort = .reports .eMidiBadChannelState := rfl
@[simp] theorem raise_badChannelState_evPort (s : State) : (raise .badChannelState s).evPort = .quiet := rfl
@[simp] theorem raise_badChannelState_regPort (s : State) : (raise .badChannelState s).regPort = s.regPort := rfl
@[simp] theorem raise_badChannelState_pinOps (s : State) : (raise .badChannelState s).pinOps = s.pinOps := rfl
@[simp] theorem raise_badChannelState_voice (s : State) : (raise .badChannelState s).voice = s.voice := rfl
@[simp] theorem raise_badChannelState_inputs (s : State) : (raise .badChannelState s).inputs = s.inputs := rfl
@[simp] theorem raise_badChannelState_cycle (s : State) : (raise .badChannelState s).cycle = s.cycle := rfl

/-! `raise E_MIDI_BAD_EVENT_HANDLER` (R247). -/

@[simp] theorem raise_badEventHandler_pstate (s : State) : (raise .badEventHandler s).pstate = s.pstate := rfl
@[simp] theorem raise_badEventHandler_status (s : State) : (raise .badEventHandler s).status = s.status := rfl
@[simp] theorem raise_badEventHandler_data1 (s : State) : (raise .badEventHandler s).data1 = s.data1 := rfl
@[simp] theorem raise_badEventHandler_data2 (s : State) : (raise .badEventHandler s).data2 = s.data2 := rfl
@[simp] theorem raise_badEventHandler_evcnt (s : State) : (raise .badEventHandler s).evcnt = s.evcnt := rfl
@[simp] theorem raise_badEventHandler_hreg (s : State) : (raise .badEventHandler s).hreg = s.hreg := rfl
@[simp] theorem raise_badEventHandler_cache (s : State) : (raise .badEventHandler s).cache = s.cache := rfl
@[simp] theorem raise_badEventHandler_pins (s : State) : (raise .badEventHandler s).pins = s.pins := rfl
@[simp] theorem raise_badEventHandler_seq (s : State) : (raise .badEventHandler s).seq = s.seq := rfl
@[simp] theorem raise_badEventHandler_outPort (s : State) : (raise .badEventHandler s).outPort = s.outPort := rfl
@[simp] theorem raise_badEventHandler_evPort (s : State) : (raise .badEventHandler s).evPort = s.evPort := rfl
@[simp] theorem raise_badEventHandler_regPort (s : State) : (raise .badEventHandler s).regPort = .reports .eMidiBadEventHandler := rfl
@[simp] theorem raise_badEventHandler_pinOps (s : State) : (raise .badEventHandler s).pinOps = s.pinOps := rfl
@[simp] theorem raise_badEventHandler_voice (s : State) : (raise .badEventHandler s).voice = s.voice := rfl
@[simp] theorem raise_badEventHandler_inputs (s : State) : (raise .badEventHandler s).inputs = s.inputs := rfl
@[simp] theorem raise_badEventHandler_cycle (s : State) : (raise .badEventHandler s).cycle = s.cycle := rfl

/-! A status byte that is recorded (R90, R100). -/

@[simp] theorem recordStatus_pstate (b : Byte) (q : PState) (s : State) : (recordStatus b q s).pstate = q := rfl
@[simp] theorem recordStatus_status (b : Byte) (q : PState) (s : State) : (recordStatus b q s).status = b := rfl
@[simp] theorem recordStatus_data1 (b : Byte) (q : PState) (s : State) : (recordStatus b q s).data1 = 0#8 := rfl
@[simp] theorem recordStatus_data2 (b : Byte) (q : PState) (s : State) : (recordStatus b q s).data2 = 0#8 := rfl
@[simp] theorem recordStatus_evcnt (b : Byte) (q : PState) (s : State) : (recordStatus b q s).evcnt = s.evcnt := rfl
@[simp] theorem recordStatus_hreg (b : Byte) (q : PState) (s : State) : (recordStatus b q s).hreg = s.hreg := rfl
@[simp] theorem recordStatus_cache (b : Byte) (q : PState) (s : State) : (recordStatus b q s).cache = s.cache := rfl
@[simp] theorem recordStatus_pins (b : Byte) (q : PState) (s : State) : (recordStatus b q s).pins = s.pins := rfl
@[simp] theorem recordStatus_seq (b : Byte) (q : PState) (s : State) : (recordStatus b q s).seq = s.seq := rfl
@[simp] theorem recordStatus_outPort (b : Byte) (q : PState) (s : State) : (recordStatus b q s).outPort = .reports .outNone := rfl
@[simp] theorem recordStatus_evPort (b : Byte) (q : PState) (s : State) : (recordStatus b q s).evPort = .quiet := rfl
@[simp] theorem recordStatus_regPort (b : Byte) (q : PState) (s : State) : (recordStatus b q s).regPort = s.regPort := rfl
@[simp] theorem recordStatus_pinOps (b : Byte) (q : PState) (s : State) : (recordStatus b q s).pinOps = s.pinOps := rfl
@[simp] theorem recordStatus_voice (b : Byte) (q : PState) (s : State) : (recordStatus b q s).voice = s.voice := rfl
@[simp] theorem recordStatus_inputs (b : Byte) (q : PState) (s : State) : (recordStatus b q s).inputs = s.inputs := rfl
@[simp] theorem recordStatus_cycle (b : Byte) (q : PState) (s : State) : (recordStatus b q s).cycle = s.cycle := rfl

/-! The error arm (R98). -/

@[simp] theorem badChannelState_pstate (b : Byte) (s : State) : (badChannelState b s).pstate = .error := rfl
@[simp] theorem badChannelState_status (b : Byte) (s : State) : (badChannelState b s).status = b := rfl
@[simp] theorem badChannelState_data1 (b : Byte) (s : State) : (badChannelState b s).data1 = 0#8 := rfl
@[simp] theorem badChannelState_data2 (b : Byte) (s : State) : (badChannelState b s).data2 = 0#8 := rfl
@[simp] theorem badChannelState_evcnt (b : Byte) (s : State) : (badChannelState b s).evcnt = s.evcnt := rfl
@[simp] theorem badChannelState_hreg (b : Byte) (s : State) : (badChannelState b s).hreg = s.hreg := rfl
@[simp] theorem badChannelState_cache (b : Byte) (s : State) : (badChannelState b s).cache = s.cache := rfl
@[simp] theorem badChannelState_pins (b : Byte) (s : State) : (badChannelState b s).pins = s.pins := rfl
@[simp] theorem badChannelState_seq (b : Byte) (s : State) : (badChannelState b s).seq = s.seq := rfl
@[simp] theorem badChannelState_outPort (b : Byte) (s : State) : (badChannelState b s).outPort = .reports .eMidiBadChannelState := rfl
@[simp] theorem badChannelState_evPort (b : Byte) (s : State) : (badChannelState b s).evPort = .quiet := rfl
@[simp] theorem badChannelState_regPort (b : Byte) (s : State) : (badChannelState b s).regPort = s.regPort := rfl
@[simp] theorem badChannelState_pinOps (b : Byte) (s : State) : (badChannelState b s).pinOps = s.pinOps := rfl
@[simp] theorem badChannelState_voice (b : Byte) (s : State) : (badChannelState b s).voice = s.voice := rfl
@[simp] theorem badChannelState_inputs (b : Byte) (s : State) : (badChannelState b s).inputs = s.inputs := rfl
@[simp] theorem badChannelState_cycle (b : Byte) (s : State) : (badChannelState b s).cycle = s.cycle := rfl

/-! A dispatch (R160). -/

@[simp] theorem dispatch_pstate (p : Params) (k : EvKind) (ch : BitVec 4) (d1 d2 : Byte) (s : State) : (dispatch p k ch d1 d2 s).pstate = s.pstate := rfl
@[simp] theorem dispatch_status (p : Params) (k : EvKind) (ch : BitVec 4) (d1 d2 : Byte) (s : State) : (dispatch p k ch d1 d2 s).status = s.status := rfl
@[simp] theorem dispatch_data1 (p : Params) (k : EvKind) (ch : BitVec 4) (d1 d2 : Byte) (s : State) : (dispatch p k ch d1 d2 s).data1 = s.data1 := rfl
@[simp] theorem dispatch_data2 (p : Params) (k : EvKind) (ch : BitVec 4) (d1 d2 : Byte) (s : State) : (dispatch p k ch d1 d2 s).data2 = s.data2 := rfl
@[simp] theorem dispatch_evcnt (p : Params) (k : EvKind) (ch : BitVec 4) (d1 d2 : Byte) (s : State) : (dispatch p k ch d1 d2 s).evcnt = (s.evcnt + 1) % 2 ^ p.evcntW := rfl
@[simp] theorem dispatch_hreg (p : Params) (k : EvKind) (ch : BitVec 4) (d1 d2 : Byte) (s : State) : (dispatch p k ch d1 d2 s).hreg = s.hreg := rfl
@[simp] theorem dispatch_cache (p : Params) (k : EvKind) (ch : BitVec 4) (d1 d2 : Byte) (s : State) : (dispatch p k ch d1 d2 s).cache = s.cache := rfl
@[simp] theorem dispatch_pins (p : Params) (k : EvKind) (ch : BitVec 4) (d1 d2 : Byte) (s : State) : (dispatch p k ch d1 d2 s).pins = s.pins := rfl
@[simp] theorem dispatch_seq (p : Params) (k : EvKind) (ch : BitVec 4) (d1 d2 : Byte) (s : State) : (dispatch p k ch d1 d2 s).seq = s.seq := rfl
@[simp] theorem dispatch_outPort (p : Params) (k : EvKind) (ch : BitVec 4) (d1 d2 : Byte) (s : State) : (dispatch p k ch d1 d2 s).outPort = .reports .outDispatched := rfl
@[simp] theorem dispatch_evPort (p : Params) (k : EvKind) (ch : BitVec 4) (d1 d2 : Byte) (s : State) : (dispatch p k ch d1 d2 s).evPort = .reports ⟨k, ch, d1, d2, registered s k⟩ := rfl
@[simp] theorem dispatch_regPort (p : Params) (k : EvKind) (ch : BitVec 4) (d1 d2 : Byte) (s : State) : (dispatch p k ch d1 d2 s).regPort = s.regPort := rfl
@[simp] theorem dispatch_pinOps (p : Params) (k : EvKind) (ch : BitVec 4) (d1 d2 : Byte) (s : State) : (dispatch p k ch d1 d2 s).pinOps = s.pinOps := rfl
@[simp] theorem dispatch_voice (p : Params) (k : EvKind) (ch : BitVec 4) (d1 d2 : Byte) (s : State) : (dispatch p k ch d1 d2 s).voice = s.voice := rfl
@[simp] theorem dispatch_inputs (p : Params) (k : EvKind) (ch : BitVec 4) (d1 d2 : Byte) (s : State) : (dispatch p k ch d1 d2 s).inputs = s.inputs := rfl
@[simp] theorem dispatch_cycle (p : Params) (k : EvKind) (ch : BitVec 4) (d1 d2 : Byte) (s : State) : (dispatch p k ch d1 d2 s).cycle = s.cycle := rfl

/-! Completion of a message (R147, R148). -/

@[simp] theorem complete_pstate (p : Params) (k : CvKind) (d1 d2 : Byte) (s : State) : (complete p k d1 d2 s).pstate = nextAfterComplete p k := rfl
@[simp] theorem complete_status (p : Params) (k : CvKind) (d1 d2 : Byte) (s : State) : (complete p k d1 d2 s).status = s.status := rfl
@[simp] theorem complete_data1 (p : Params) (k : CvKind) (d1 d2 : Byte) (s : State) : (complete p k d1 d2 s).data1 = 0#8 := rfl
@[simp] theorem complete_data2 (p : Params) (k : CvKind) (d1 d2 : Byte) (s : State) : (complete p k d1 d2 s).data2 = 0#8 := rfl
@[simp] theorem complete_evcnt (p : Params) (k : CvKind) (d1 d2 : Byte) (s : State) : (complete p k d1 d2 s).evcnt = (s.evcnt + 1) % 2 ^ p.evcntW := rfl
@[simp] theorem complete_hreg (p : Params) (k : CvKind) (d1 d2 : Byte) (s : State) : (complete p k d1 d2 s).hreg = s.hreg := rfl
@[simp] theorem complete_cache (p : Params) (k : CvKind) (d1 d2 : Byte) (s : State) : (complete p k d1 d2 s).cache = s.cache := rfl
@[simp] theorem complete_pins (p : Params) (k : CvKind) (d1 d2 : Byte) (s : State) : (complete p k d1 d2 s).pins = s.pins := rfl
@[simp] theorem complete_seq (p : Params) (k : CvKind) (d1 d2 : Byte) (s : State) : (complete p k d1 d2 s).seq = s.seq := rfl
@[simp] theorem complete_outPort (p : Params) (k : CvKind) (d1 d2 : Byte) (s : State) : (complete p k d1 d2 s).outPort = .reports .outDispatched := rfl
@[simp] theorem complete_evPort (p : Params) (k : CvKind) (d1 d2 : Byte) (s : State) : (complete p k d1 d2 s).evPort = .reports ⟨.cv k, channelOf s.status, d1, d2, registered s (.cv k)⟩ := rfl
@[simp] theorem complete_regPort (p : Params) (k : CvKind) (d1 d2 : Byte) (s : State) : (complete p k d1 d2 s).regPort = s.regPort := rfl
@[simp] theorem complete_pinOps (p : Params) (k : CvKind) (d1 d2 : Byte) (s : State) : (complete p k d1 d2 s).pinOps = s.pinOps := rfl
@[simp] theorem complete_voice (p : Params) (k : CvKind) (d1 d2 : Byte) (s : State) : (complete p k d1 d2 s).voice = s.voice := rfl
@[simp] theorem complete_inputs (p : Params) (k : CvKind) (d1 d2 : Byte) (s : State) : (complete p k d1 d2 s).inputs = s.inputs := rfl
@[simp] theorem complete_cycle (p : Params) (k : CvKind) (d1 d2 : Byte) (s : State) : (complete p k d1 d2 s).cycle = s.cycle := rfl

/-! The first of two data bytes (R132). -/

@[simp] theorem storeFirst_pstate (k : CvKind) (b : Byte) (s : State) : (storeFirst k b s).pstate = .awaitSecond k := rfl
@[simp] theorem storeFirst_status (k : CvKind) (b : Byte) (s : State) : (storeFirst k b s).status = s.status := rfl
@[simp] theorem storeFirst_data1 (k : CvKind) (b : Byte) (s : State) : (storeFirst k b s).data1 = b := rfl
@[simp] theorem storeFirst_data2 (k : CvKind) (b : Byte) (s : State) : (storeFirst k b s).data2 = s.data2 := rfl
@[simp] theorem storeFirst_evcnt (k : CvKind) (b : Byte) (s : State) : (storeFirst k b s).evcnt = s.evcnt := rfl
@[simp] theorem storeFirst_hreg (k : CvKind) (b : Byte) (s : State) : (storeFirst k b s).hreg = s.hreg := rfl
@[simp] theorem storeFirst_cache (k : CvKind) (b : Byte) (s : State) : (storeFirst k b s).cache = s.cache := rfl
@[simp] theorem storeFirst_pins (k : CvKind) (b : Byte) (s : State) : (storeFirst k b s).pins = s.pins := rfl
@[simp] theorem storeFirst_seq (k : CvKind) (b : Byte) (s : State) : (storeFirst k b s).seq = s.seq := rfl
@[simp] theorem storeFirst_outPort (k : CvKind) (b : Byte) (s : State) : (storeFirst k b s).outPort = .reports .outNone := rfl
@[simp] theorem storeFirst_evPort (k : CvKind) (b : Byte) (s : State) : (storeFirst k b s).evPort = .quiet := rfl
@[simp] theorem storeFirst_regPort (k : CvKind) (b : Byte) (s : State) : (storeFirst k b s).regPort = s.regPort := rfl
@[simp] theorem storeFirst_pinOps (k : CvKind) (b : Byte) (s : State) : (storeFirst k b s).pinOps = s.pinOps := rfl
@[simp] theorem storeFirst_voice (k : CvKind) (b : Byte) (s : State) : (storeFirst k b s).voice = s.voice := rfl
@[simp] theorem storeFirst_inputs (k : CvKind) (b : Byte) (s : State) : (storeFirst k b s).inputs = s.inputs := rfl
@[simp] theorem storeFirst_cycle (k : CvKind) (b : Byte) (s : State) : (storeFirst k b s).cycle = s.cycle := rfl

/-! Pin operations performed (R44). -/

@[simp] theorem perform_pstate (ops : List PinOp) (s : State) : (perform ops s).pstate = s.pstate := rfl
@[simp] theorem perform_status (ops : List PinOp) (s : State) : (perform ops s).status = s.status := rfl
@[simp] theorem perform_data1 (ops : List PinOp) (s : State) : (perform ops s).data1 = s.data1 := rfl
@[simp] theorem perform_data2 (ops : List PinOp) (s : State) : (perform ops s).data2 = s.data2 := rfl
@[simp] theorem perform_evcnt (ops : List PinOp) (s : State) : (perform ops s).evcnt = s.evcnt := rfl
@[simp] theorem perform_hreg (ops : List PinOp) (s : State) : (perform ops s).hreg = s.hreg := rfl
@[simp] theorem perform_cache (ops : List PinOp) (s : State) : (perform ops s).cache = s.cache := rfl
@[simp] theorem perform_pins (ops : List PinOp) (s : State) : (perform ops s).pins = pinOpsOn ops s.pins := rfl
@[simp] theorem perform_seq (ops : List PinOp) (s : State) : (perform ops s).seq = s.seq := rfl
@[simp] theorem perform_outPort (ops : List PinOp) (s : State) : (perform ops s).outPort = s.outPort := rfl
@[simp] theorem perform_evPort (ops : List PinOp) (s : State) : (perform ops s).evPort = s.evPort := rfl
@[simp] theorem perform_regPort (ops : List PinOp) (s : State) : (perform ops s).regPort = s.regPort := rfl
@[simp] theorem perform_pinOps (ops : List PinOp) (s : State) : (perform ops s).pinOps = ops := rfl
@[simp] theorem perform_voice (ops : List PinOp) (s : State) : (perform ops s).voice = s.voice := rfl
@[simp] theorem perform_inputs (ops : List PinOp) (s : State) : (perform ops s).inputs = s.inputs := rfl
@[simp] theorem perform_cycle (ops : List PinOp) (s : State) : (perform ops s).cycle = s.cycle := rfl

/-! A divisor offered to the timer programmer (R218). -/

@[simp] theorem offerDivisor_pstate (p : Params) (d : Nat) (s : State) : (offerDivisor p d s).pstate = s.pstate := rfl
@[simp] theorem offerDivisor_status (p : Params) (d : Nat) (s : State) : (offerDivisor p d s).status = s.status := rfl
@[simp] theorem offerDivisor_data1 (p : Params) (d : Nat) (s : State) : (offerDivisor p d s).data1 = s.data1 := rfl
@[simp] theorem offerDivisor_data2 (p : Params) (d : Nat) (s : State) : (offerDivisor p d s).data2 = s.data2 := rfl
@[simp] theorem offerDivisor_evcnt (p : Params) (d : Nat) (s : State) : (offerDivisor p d s).evcnt = s.evcnt := rfl
@[simp] theorem offerDivisor_hreg (p : Params) (d : Nat) (s : State) : (offerDivisor p d s).hreg = s.hreg := rfl
@[simp] theorem offerDivisor_cache (p : Params) (d : Nat) (s : State) : (offerDivisor p d s).cache = s.cache := rfl
@[simp] theorem offerDivisor_pins (p : Params) (d : Nat) (s : State) : (offerDivisor p d s).pins = s.pins := rfl
@[simp] theorem offerDivisor_seq (p : Params) (d : Nat) (s : State) : (offerDivisor p d s).seq = s.seq := rfl
@[simp] theorem offerDivisor_outPort (p : Params) (d : Nat) (s : State) : (offerDivisor p d s).outPort = s.outPort := rfl
@[simp] theorem offerDivisor_evPort (p : Params) (d : Nat) (s : State) : (offerDivisor p d s).evPort = s.evPort := rfl
@[simp] theorem offerDivisor_regPort (p : Params) (d : Nat) (s : State) : (offerDivisor p d s).regPort = s.regPort := rfl
@[simp] theorem offerDivisor_pinOps (p : Params) (d : Nat) (s : State) : (offerDivisor p d s).pinOps = s.pinOps := rfl
@[simp] theorem offerDivisor_voice (p : Params) (d : Nat) (s : State) : (offerDivisor p d s).voice = s.voice := rfl
@[simp] theorem offerDivisor_inputs (p : Params) (d : Nat) (s : State) : (offerDivisor p d s).inputs = .call (.cmd (cmdWord p.voiceChannel (divisorLsb d) (divisorMsb d))) :: s.inputs := rfl
@[simp] theorem offerDivisor_cycle (p : Params) (d : Nat) (s : State) : (offerDivisor p d s).cycle = s.cycle := rfl

/-! The state a stimulus acts on. -/

@[simp] theorem taking_pstate (r : List Stimulus) (s : State) : (s.taking r).pstate = s.pstate := rfl
@[simp] theorem taking_status (r : List Stimulus) (s : State) : (s.taking r).status = s.status := rfl
@[simp] theorem taking_data1 (r : List Stimulus) (s : State) : (s.taking r).data1 = s.data1 := rfl
@[simp] theorem taking_data2 (r : List Stimulus) (s : State) : (s.taking r).data2 = s.data2 := rfl
@[simp] theorem taking_evcnt (r : List Stimulus) (s : State) : (s.taking r).evcnt = s.evcnt := rfl
@[simp] theorem taking_hreg (r : List Stimulus) (s : State) : (s.taking r).hreg = s.hreg := rfl
@[simp] theorem taking_cache (r : List Stimulus) (s : State) : (s.taking r).cache = s.cache := rfl
@[simp] theorem taking_pins (r : List Stimulus) (s : State) : (s.taking r).pins = s.pins := rfl
@[simp] theorem taking_seq (r : List Stimulus) (s : State) : (s.taking r).seq = s.seq := rfl
@[simp] theorem taking_outPort (r : List Stimulus) (s : State) : (s.taking r).outPort = .quiet := rfl
@[simp] theorem taking_evPort (r : List Stimulus) (s : State) : (s.taking r).evPort = .quiet := rfl
@[simp] theorem taking_regPort (r : List Stimulus) (s : State) : (s.taking r).regPort = .quiet := rfl
@[simp] theorem taking_pinOps (r : List Stimulus) (s : State) : (s.taking r).pinOps = [] := rfl
@[simp] theorem taking_voice (r : List Stimulus) (s : State) : (s.taking r).voice = s.voice := rfl
@[simp] theorem taking_inputs (r : List Stimulus) (s : State) : (s.taking r).inputs = r := rfl
@[simp] theorem taking_cycle (r : List Stimulus) (s : State) : (s.taking r).cycle = s.cycle + 1 := rfl

/-! Reset (R33): only the model's own schedule and count of steps go on. -/

theorem resetOp_pstate (p : Params) (s : State) : (resetOp p s).pstate = (State.resetWith p).pstate := rfl
theorem resetOp_status (p : Params) (s : State) : (resetOp p s).status = (State.resetWith p).status := rfl
theorem resetOp_data1 (p : Params) (s : State) : (resetOp p s).data1 = (State.resetWith p).data1 := rfl
theorem resetOp_data2 (p : Params) (s : State) : (resetOp p s).data2 = (State.resetWith p).data2 := rfl
theorem resetOp_evcnt (p : Params) (s : State) : (resetOp p s).evcnt = (State.resetWith p).evcnt := rfl
theorem resetOp_hreg (p : Params) (s : State) : (resetOp p s).hreg = (State.resetWith p).hreg := rfl
theorem resetOp_cache (p : Params) (s : State) : (resetOp p s).cache = (State.resetWith p).cache := rfl
theorem resetOp_pins (p : Params) (s : State) : (resetOp p s).pins = (State.resetWith p).pins := rfl
theorem resetOp_seq (p : Params) (s : State) : (resetOp p s).seq = (State.resetWith p).seq := rfl
theorem resetOp_outPort (p : Params) (s : State) : (resetOp p s).outPort = (State.resetWith p).outPort := rfl
theorem resetOp_evPort (p : Params) (s : State) : (resetOp p s).evPort = (State.resetWith p).evPort := rfl
theorem resetOp_regPort (p : Params) (s : State) : (resetOp p s).regPort = (State.resetWith p).regPort := rfl
theorem resetOp_pinOps (p : Params) (s : State) : (resetOp p s).pinOps = (State.resetWith p).pinOps := rfl
theorem resetOp_voice (p : Params) (s : State) : (resetOp p s).voice = (State.resetWith p).voice := rfl
theorem resetOp_inputs (p : Params) (s : State) : (resetOp p s).inputs = s.inputs := rfl
theorem resetOp_cycle (p : Params) (s : State) : (resetOp p s).cycle = s.cycle := rfl

end Sys2Proof.Machine
end

