-- ==== Sys2Proof/Laws/Ops.lean ====
section
/-!
SUPPORT. For each shared operation, once, everything it can do.
-/

namespace Sys2Proof.Machine

/-! ## Sequencing of results -/

@[simp] theorem andThen_next (s : State) (f : State → Result) : andThen (.next s) f = f s := rfl
@[simp] theorem andThen_fault (e : Fault) (f : State → Result) : andThen (.fault e) f = .fault e := rfl
@[simp] theorem andThen_refused (e : Refusal) (f : State → Result) : andThen (.refused e) f = .refused e := rfl

/-- A sequence that ends in a next state passed through one. -/
theorem andThen_eq_next {r : Result} {f : State → Result} {t : State} (h : andThen r f = .next t) :
    ∃ s, r = .next s ∧ f s = .next t := by
  cases r with
  | next s => exact ⟨s, rfl, h⟩
  | fault e => cases h
  | refused e => cases h

/-! ## Kinds and the callback table -/

@[simp] theorem cvOfCode_cvCode (k : CvKind) : cvOfCode (cvCode k) = some k := by cases k <;> rfl

@[simp] theorem kindOfCode_kindCode (k : EvKind) : kindOfCode (kindCode k) = some k := by
  cases k with
  | cv k => cases k <;> rfl
  | sc n => revert n; decide
  | rt n => revert n; decide

/-- The codes that name a kind are 0 to 6 and 8 to 23 (R66). -/
theorem kindOfCode_isSome : ∀ c : BitVec 5, (kindOfCode c).isSome = kindInRange c := by decide

/-- A code that names a kind is that kind's code. -/
theorem kindCode_of_kindOfCode {c : BitVec 5} {k : EvKind} (h : kindOfCode c = some k) : kindCode k = c := by
  have all : ∀ c : BitVec 5, ∀ k ∈ kindOfCode c, kindCode k = c := by decide
  exact all c k h

/-- No kind has code 7 or a code above 23, so bit 7 of `HREG` is never written (R16). -/
theorem kindCode_lt (k : EvKind) : (kindCode k).toNat < 24 ∧ (kindCode k).toNat ≠ 7 := by
  cases k with
  | cv k => cases k <;> decide
  | sc n => revert n; decide
  | rt n => revert n; decide

/-- The mask of slot `n` has that bit alone. -/
theorem slotMask_getLsbD {n : Nat} (hn : n < 24) (j : Nat) : (1#24 <<< n).getLsbD j = decide (j = n) := by
  simp only [BitVec.getLsbD_shiftLeft, BitVec.getLsbD_one]
  by_cases h : j < n
  · simp [h]; omega
  · by_cases h' : j = n
    · subst h'; simp; omega
    · simp [h']; omega

/-- `HREG[k] <- en` writes slot `k` and no other (R165). -/
theorem hregWrite_getLsbD (h : BitVec 24) (k : EvKind) (en : Bool) (j : Nat) :
    (hregWrite h k en).getLsbD j = if j = (kindCode k).toNat then en else h.getLsbD j := by
  have hk := (kindCode_lt k).1
  unfold hregWrite
  generalize (kindCode k).toNat = n at hk
  cases en
  · simp only [Bool.false_eq_true, if_false, BitVec.getLsbD_and, BitVec.getLsbD_not, slotMask_getLsbD hk]
    by_cases hj : j = n
    · simp [hj]
    · by_cases hl : j < 24
      · simp [hj, hl]
      · simp [hj, hl, BitVec.getLsbD_of_ge h j (by omega)]
  · simp only [if_true, BitVec.getLsbD_or, slotMask_getLsbD hk]
    by_cases hj : j = n <;> simp [hj]

/-- `register`: one slot written and status `OK`, or the error and nothing else (R165, R166). -/
theorem registerSlot_cases (c : BitVec 5) (en : Bool) (s : State) :
    (∃ k, kindOfCode c = some k ∧
      registerSlot c en s = { s with hreg := hregWrite s.hreg k en, regPort := .reports .outNone }) ∨
    (kindOfCode c = none ∧ registerSlot c en s = { s with regPort := .reports .eMidiBadEventHandler }) := by
  unfold registerSlot
  cases h : kindOfCode c with
  | some k => exact .inl ⟨k, rfl, rfl⟩
  | none => exact .inr ⟨rfl, rfl⟩

/-! ## Data bytes -/

/-- A data byte is discarded, stored, or completes a message (R151). -/
theorem dataByte_cases (p : Params) (b : Byte) (s : State) :
    ((s.pstate = .waitingForStatus ∨ s.pstate = .error ∨ ∃ k, oneDataByte k = true ∧ s.pstate = .awaitSecond k) ∧
      dataByte p b s = noMessage s) ∨
    (∃ k, oneDataByte k = false ∧ s.pstate = .awaitFirst k ∧ dataByte p b s = storeFirst k b s) ∨
    (∃ k, oneDataByte k = true ∧ s.pstate = .awaitFirst k ∧ dataByte p b s = complete p k b 0#8 s) ∨
    (∃ k, oneDataByte k = false ∧ s.pstate = .awaitSecond k ∧ dataByte p b s = complete p k s.data1 b s) := by
  unfold dataByte
  cases s.pstate with
  | waitingForStatus => exact .inl ⟨.inl rfl, rfl⟩
  | error => exact .inl ⟨.inr (.inl rfl), rfl⟩
  | awaitFirst k =>
    cases h : oneDataByte k
    · exact .inr (.inl ⟨k, h, rfl, by simp [h]⟩)
    · exact .inr (.inr (.inl ⟨k, h, rfl, by simp [h]⟩))
  | awaitSecond k =>
    cases h : oneDataByte k
    · exact .inr (.inr (.inr ⟨k, h, rfl, by simp [h]⟩))
    · exact .inl ⟨.inr (.inr ⟨k, h, rfl⟩), by simp [h]⟩

/-! ## Pins -/

@[simp] theorem pinOpsOn_nil (x : Pins) : pinOpsOn [] x = x := rfl
@[simp] theorem pinOpsOn_cons (o : PinOp) (os : List PinOp) (x : Pins) :
    pinOpsOn (o :: os) x = pinOpsOn os (pinOp o x) := rfl

/-- Pin operations are performed one after the other (R49 (b)). -/
theorem pinOpsOn_append (a b : List PinOp) (x : Pins) : pinOpsOn (a ++ b) x = pinOpsOn b (pinOpsOn a x) := by
  induction a generalizing x with
  | nil => rfl
  | cons o os ih => exact ih _

/-- One register write leaves its address and data on the lines and the strobe released (R44). -/
theorem pinOpsOn_busWrite (a : BitVec 2) (v : Byte) (x : Pins) :
    pinOpsOn (busWrite a v) x = { x with a := a, d := v, wrn := true } := rfl

/-- A bus sequence ends with chip-select and strobe released (R24 (b)). -/
theorem pinOpsOn_writeOps_rest (p : Params) (x : Pending) (y : Pins) :
    (pinOpsOn (writeOps p x) y).csn = true ∧ (pinOpsOn (writeOps p x) y).wrn = true := by
  simp only [writeOps, controlOps, dataOps, pinOpsOn_append]
  cases x.dl <;> cases x.dm <;> exact ⟨rfl, rfl⟩

/-- The operations of one edge and those that remain are the operations there were. -/
theorem splitEdge_append (ops : List PinOp) : (splitEdge ops).1 ++ (splitEdge ops).2 = ops := by
  induction ops with
  | nil => rfl
  | cons o os ih => simp only [splitEdge]; split <;> simp [ih]

/-- The operations that remain after an edge are the end of those there were. -/
theorem splitEdge_suffix (ops : List PinOp) : (splitEdge ops).2 <:+ ops := ⟨_, splitEdge_append ops⟩

/-- The settle timer is set below `T_SETTLE` (R190). -/
theorem settleWait_lt (p : Params) (now : List PinOp) : settleWait p now < p.tSettle := by
  unfold settleWait; split <;> simp

/-- An edge that begins a settle delay lets the rest of `T_SETTLE` cycles pass (R44, R190). -/
theorem settleWait_of_mem (p : Params) {now : List PinOp} (h : .settle ∈ now) : settleWait p now = p.tSettle - 1 :=
  if_pos (List.contains_iff_mem.2 h)

/-! ## The dirty cache -/

@[simp] theorem cacheGet_cacheSet_same (t : Cache) (c : TimerCh) (e : CacheEntry) :
    cacheGet (cacheSet t c e) c = e := by
  match c with
  | 0 => rfl
  | 1 => rfl
  | 2 => rfl

/-- The other channels' entries are untouched (R186). -/
theorem cacheGet_cacheSet_other (t : Cache) {c d : TimerCh} (e : CacheEntry) (h : d ≠ c) :
    cacheGet (cacheSet t c e) d = cacheGet t d := by
  match c, d with
  | 0, 0 => exact absurd rfl h
  | 0, 1 => rfl
  | 0, 2 => rfl
  | 1, 0 => rfl
  | 1, 1 => exact absurd rfl h
  | 1, 2 => rfl
  | 2, 0 => rfl
  | 2, 1 => rfl
  | 2, 2 => exact absurd rfl h

@[simp] theorem timerChannel_channelId (c : TimerCh) : timerChannel (channelId c) = some c := by
  match c with
  | 0 => rfl
  | 1 => rfl
  | 2 => rfl

/-- A byte that was not dirty already equals the requested byte and is valid (R186). -/
theorem entryUpdate_of_dirty (e : CacheEntry) (l m : Byte) :
    entryUpdate e l m (dirtyLsb e l) (dirtyMsb e m) = ⟨l, m, true, true⟩ := by
  obtain ⟨el, em, vl, vm⟩ := e
  simp only [entryUpdate, dirtyLsb, dirtyMsb]
  cases vl <;> cases vm <;> simp

/-- `writeChannel` is turned away, ignored, skipped or performed (R180 to R186, R189); in all but the last case only the
reported pin operations change. -/
theorem writeChannelOp_cases (p : Params) (c : BitVec 2) (l m : Byte) (s : State) :
    writeChannelOp p c l m s = { s with pinOps := [] } ∨
    ∃ ch, s.seq = .idle ∧ timerChannel c = some ch ∧
      ((pendingOf s.cache ch l m).dl || (pendingOf s.cache ch l m).dm) = true ∧
      writeChannelOp p c l m s = { perform (writeOps p (pendingOf s.cache ch l m)) s with
        cache := cacheUpdate (pendingOf s.cache ch l m) s.cache } := by
  unfold writeChannelOp
  cases hq : s.seq with
  | busy x ops n => exact .inl rfl
  | idle =>
    cases hc : timerChannel c with
    | none => exact .inl rfl
    | some ch =>
      by_cases hd : ((pendingOf s.cache ch l m).dl || (pendingOf s.cache ch l m).dm) = true
      · exact .inr ⟨ch, rfl, rfl, hd, by simp [hd]⟩
      · exact .inl (by simp [hd])

/-- A control word is not emitted, or the command in progress emits it: what remains of that emission is performed and
the rest is left (R74, R185; entry 8). -/
theorem emitControlWord_cases (p : Params) (b : Byte) (s : State) :
    emitControlWord p b s = { s with pinOps := [] } ∨
    ∃ x ops w n, s.seq = .busy x ops w ∧ b = controlWordOf p x ∧ n = ops.length - (dataOps p x).length ∧ 0 < n ∧
      emitControlWord p b s = { perform (ops.take n) s with seq := .busy x (ops.drop n) 0 } := by
  unfold emitControlWord
  cases hq : s.seq with
  | idle => exact .inl rfl
  | busy x ops w =>
    by_cases h : b = controlWordOf p x ∧ 0 < ops.length - (dataOps p x).length
    · exact .inr ⟨x, ops, w, _, rfl, h.1, rfl, h.2, if_pos h⟩
    · exact .inl (if_neg h)

/-! ## The sequencer -/

/-- One edge of the sequencer: idle, waiting out a settle delay, performing operations with more to come, or performing
the last ones (R190). -/
theorem seqEdge_cases (p : Params) (s : State) :
    (s.seq = .idle ∧ seqEdge p s = s) ∨
    (∃ x ops n, s.seq = .busy x ops (n + 1) ∧ seqEdge p s = { s with seq := .busy x ops n }) ∨
    (∃ x ops, s.seq = .busy x ops 0 ∧ (splitEdge ops).2 ≠ [] ∧
      seqEdge p s = { perform (splitEdge ops).1 s with
        seq := .busy x (splitEdge ops).2 (settleWait p (splitEdge ops).1) }) ∨
    (∃ x ops, s.seq = .busy x ops 0 ∧ (splitEdge ops).2 = [] ∧
      seqEdge p s = { perform (splitEdge ops).1 s with seq := .idle, cache := cacheUpdate x s.cache }) := by
  unfold seqEdge
  cases hq : s.seq with
  | idle => exact .inl ⟨rfl, rfl⟩
  | busy x ops n =>
    cases n with
    | succ n => exact .inr (.inl ⟨x, ops, n, rfl, rfl⟩)
    | zero =>
      by_cases hr : (splitEdge ops).2 = []
      · exact .inr (.inr (.inr ⟨x, ops, rfl, hr, by simp [hr]⟩))
      · exact .inr (.inr (.inl ⟨x, ops, rfl, hr, by simp [hr]⟩))

/-- The sequencer's edge leaves the decoder and the companion as they are (R50). -/
theorem seqEdge_frame (p : Params) (s : State) :
    sameDecoder (seqEdge p s) s ∧ (seqEdge p s).voice = s.voice ∧ (seqEdge p s).inputs = s.inputs := by
  rcases seqEdge_cases p s with ⟨_, h⟩ | ⟨x, ops, n, _, h⟩ | ⟨x, ops, _, _, h⟩ | ⟨x, ops, _, _, h⟩ <;>
    simp [h, sameDecoder]

/-- A held edge of the sequencer does nothing; any other is an edge of the sequencer (R290). -/
theorem heldEdge_cases (p : Params) (hold : Bool) (s : State) : heldEdge p hold s = s ∨ heldEdge p hold s = seqEdge p s := by
  cases hold
  · exact .inr rfl
  · exact .inl rfl

/-- What the timer programmer does at an edge: an edge of the busy sequencer, nothing, or the beginning of a sequence. -/
theorem timerEdge_cases (p : Params) (hold : Bool) (cmd : Option (BitVec 18)) (s : State) :
    (s.seq ≠ .idle ∧ timerEdge p hold cmd s = heldEdge p hold s) ∨ (s.seq = .idle ∧ timerEdge p hold cmd s = s) ∨
    (∃ w ch, s.seq = .idle ∧ cmd = some w ∧ timerChannel (cmdChannel w) = some ch ∧
      ((pendingOf s.cache ch (cmdLsb w) (cmdMsb w)).dl || (pendingOf s.cache ch (cmdLsb w) (cmdMsb w)).dm) = true ∧
      timerEdge p hold cmd s = heldEdge p hold { s with
        seq := .busy (pendingOf s.cache ch (cmdLsb w) (cmdMsb w))
          (writeOps p (pendingOf s.cache ch (cmdLsb w) (cmdMsb w))) 0 }) := by
  unfold timerEdge
  cases hq : s.seq with
  | busy x ops n => exact .inl ⟨by simp, rfl⟩
  | idle =>
    cases cmd with
    | none => exact .inr (.inl ⟨rfl, rfl⟩)
    | some w =>
      unfold acceptCommand
      cases hc : timerChannel (cmdChannel w) with
      | none => exact .inr (.inl ⟨rfl, by simp [hc]⟩)
      | some ch =>
        by_cases hd : ((pendingOf s.cache ch (cmdLsb w) (cmdMsb w)).dl ||
            (pendingOf s.cache ch (cmdLsb w) (cmdMsb w)).dm) = true
        · exact .inr (.inr ⟨w, ch, rfl, rfl, hc, hd, by simp [hc, hd]⟩)
        · exact .inr (.inl ⟨rfl, by simp [hc, hd]⟩)

/-! ## The companion -/

/-- `Reprogram` offers the divisor's command, or is refused for frequency 0 (R218, R196). -/
theorem reprogram_cases (p : Params) (f : Nat) (s : State) :
    (f = 0 ∧ reprogram p f s = .refused .divisorOfZero) ∨
    (0 < f ∧ reprogram p f s = .next (offerDivisor p (p.fMaster / f) s)) := by
  unfold reprogram divisor
  by_cases h : f = 0
  · exact .inl ⟨h, by simp [h]⟩
  · exact .inr ⟨Nat.pos_of_ne_zero h, by simp [h]⟩

/-- `noteOff`: nothing at zero, silence on the way from one to zero, otherwise the count goes down (R215). -/
theorem noteOff_cases (p : Params) (s : State) :
    (s.voice.notesHeld = 0 ∧ noteOff p s = s) ∨
    (s.voice.notesHeld = 1 ∧ noteOff p s = silence p { s with voice := { s.voice with notesHeld := 0 } }) ∨
    (∃ n, s.voice.notesHeld = n + 2 ∧ noteOff p s = { s with voice := { s.voice with notesHeld := n + 1 } }) := by
  unfold noteOff
  generalize s.voice.notesHeld = h
  match h with
  | 0 => exact .inl ⟨rfl, rfl⟩
  | 1 => exact .inr (.inl ⟨rfl, rfl⟩)
  | n + 2 => exact .inr (.inr ⟨n, rfl, rfl⟩)

end Sys2Proof.Machine
end

