-- ==== Sys2Proof/Laws/PerInstr.lean ====
section
/-!
SUPPORT. Statements made for each instruction. `MatchesTable`: the encoder's word has the fixed bits that
spec/opcode_table.json prints for the row (its match under its mask, or the 0s and 1s of its pattern).
-/

namespace Sys2Proof.Laws.MatchesTable

/-- The word under the mask is the match, all three on the same port. -/
def agrees : Frame → Frame → Frame → Prop
  | .rx b, .rx mask, .rx value => b &&& mask = value
  | .reg w, .reg mask, .reg value => w &&& mask = value
  | .cmd w, .cmd mask, .cmd value => w &&& mask = value
  | .bus b, .bus mask, .bus value => b &&& mask = value
  | .rst, .rst, .rst => True
  | _, _, _ => False

/-- Mask and match of an instruction's row. -/
def row : Instr → Frame × Frame
  | .noteOff _ => (.rx 0xF0#8, .rx 0x80#8)
  | .noteOn _ => (.rx 0xF0#8, .rx 0x90#8)
  | .polyAftertouch _ => (.rx 0xF0#8, .rx 0xA0#8)
  | .controlChange _ => (.rx 0xF0#8, .rx 0xB0#8)
  | .programChange _ => (.rx 0xF0#8, .rx 0xC0#8)
  | .channelAftertouch _ => (.rx 0xF0#8, .rx 0xD0#8)
  | .pitchBend _ => (.rx 0xF0#8, .rx 0xE0#8)
  | .scF0 => (.rx 0xFF#8, .rx 0xF0#8)
  | .scF1 => (.rx 0xFF#8, .rx 0xF1#8)
  | .scF2 => (.rx 0xFF#8, .rx 0xF2#8)
  | .scF3 => (.rx 0xFF#8, .rx 0xF3#8)
  | .scF4 => (.rx 0xFF#8, .rx 0xF4#8)
  | .scF5 => (.rx 0xFF#8, .rx 0xF5#8)
  | .scF6 => (.rx 0xFF#8, .rx 0xF6#8)
  | .scF7 => (.rx 0xFF#8, .rx 0xF7#8)
  | .rtF8 => (.rx 0xFF#8, .rx 0xF8#8)
  | .rtF9 => (.rx 0xFF#8, .rx 0xF9#8)
  | .rtFA => (.rx 0xFF#8, .rx 0xFA#8)
  | .rtFB => (.rx 0xFF#8, .rx 0xFB#8)
  | .rtFC => (.rx 0xFF#8, .rx 0xFC#8)
  | .rtFD => (.rx 0xFF#8, .rx 0xFD#8)
  | .rtFE => (.rx 0xFF#8, .rx 0xFE#8)
  | .rtFF => (.rx 0xFF#8, .rx 0xFF#8)
  | .data _ => (.rx 0x80#8, .rx 0x00#8)
  | .register _ => (.reg 0b100000#6, .reg 0b100000#6)
  | .unregister _ => (.reg 0b100000#6, .reg 0b000000#6)
  | .registerBadKind7 _ => (.reg 0b011111#6, .reg 0b000111#6)
  | .registerBadKind24To31 _ _ => (.reg 0b011000#6, .reg 0b011000#6)
  | .writeChannel _ _ _ => (.cmd 0#18, .cmd 0#18)
  | .writeChannelInvalid _ _ => (.cmd 0x30000#18, .cmd 0x30000#18)
  | .controlWord _ _ _ _ => (.bus 0#8, .bus 0#8)
  | .reset => (.rst, .rst)

/-- The word of an instruction has its row's fixed bits. -/
def Statement (i : Instr) : Prop := agrees (encode i) (row i).1 (row i).2

theorem status_bits (n ch : BitVec 4) : (n ++ ch : BitVec 8) &&& 0xF0#8 = n ++ 0#4 := by revert n ch; decide

theorem noteOff (ch : BitVec 4) : Statement (.noteOff ch) := status_bits _ ch
theorem noteOn (ch : BitVec 4) : Statement (.noteOn ch) := status_bits _ ch
theorem polyAftertouch (ch : BitVec 4) : Statement (.polyAftertouch ch) := status_bits _ ch
theorem controlChange (ch : BitVec 4) : Statement (.controlChange ch) := status_bits _ ch
theorem programChange (ch : BitVec 4) : Statement (.programChange ch) := status_bits _ ch
theorem channelAftertouch (ch : BitVec 4) : Statement (.channelAftertouch ch) := status_bits _ ch
theorem pitchBend (ch : BitVec 4) : Statement (.pitchBend ch) := status_bits _ ch
theorem scF0 : Statement .scF0 := rfl
theorem scF1 : Statement .scF1 := rfl
theorem scF2 : Statement .scF2 := rfl
theorem scF3 : Statement .scF3 := rfl
theorem scF4 : Statement .scF4 := rfl
theorem scF5 : Statement .scF5 := rfl
theorem scF6 : Statement .scF6 := rfl
theorem scF7 : Statement .scF7 := rfl
theorem rtF8 : Statement .rtF8 := rfl
theorem rtF9 : Statement .rtF9 := rfl
theorem rtFA : Statement .rtFA := rfl
theorem rtFB : Statement .rtFB := rfl
theorem rtFC : Statement .rtFC := rfl
theorem rtFD : Statement .rtFD := rfl
theorem rtFE : Statement .rtFE := rfl
theorem rtFF : Statement .rtFF := rfl
theorem data (v : BitVec 7) : Statement (.data v) := by
  have h : ∀ v : BitVec 7, (0#1 ++ v : BitVec 8) &&& 0x80#8 = 0x00#8 := by decide
  exact h v
theorem register (kind : BitVec 5) : Statement (.register kind) := by
  have h : ∀ k : BitVec 5, (1#1 ++ k : BitVec 6) &&& 0b100000#6 = 0b100000#6 := by decide
  exact h kind
theorem unregister (kind : BitVec 5) : Statement (.unregister kind) := by
  have h : ∀ k : BitVec 5, (0#1 ++ k : BitVec 6) &&& 0b100000#6 = 0b000000#6 := by decide
  exact h kind
theorem registerBadKind7 (en : BitVec 1) : Statement (.registerBadKind7 en) := by
  have h : ∀ e : BitVec 1, (e ++ 7#5 : BitVec 6) &&& 0b011111#6 = 0b000111#6 := by decide
  exact h en
theorem registerBadKind24To31 (en : BitVec 1) (low : BitVec 3) : Statement (.registerBadKind24To31 en low) := by
  have h : ∀ (e : BitVec 1) (l : BitVec 3), (e ++ (0b11#2 ++ l) : BitVec 6) &&& 0b011000#6 = 0b011000#6 := by decide
  exact h en low
theorem writeChannel (c : BitVec 2) (lsb msb : Byte) : Statement (.writeChannel c lsb msb) := BitVec.and_zero
theorem writeChannelInvalid (lsb msb : Byte) : Statement (.writeChannelInvalid lsb msb) := by
  show (3#2 ++ (lsb ++ msb) : BitVec 18) &&& (3#2 ++ 0#16) = 3#2 ++ 0#16
  rw [BitVec.and_append]
  simp
theorem controlWord (c am : BitVec 2) (mode : BitVec 3) (bcd : BitVec 1) : Statement (.controlWord c am mode bcd) :=
  BitVec.and_zero
theorem reset : Statement .reset := trivial

end Sys2Proof.Laws.MatchesTable
end

