-- ==== Sys2Proof/Laws/Step.lean ====
section
/-!
SUPPORT. What running a word and taking a step can do, said once.
-/

namespace Sys2Proof.Machine

/-- The kinds of effect an instruction can have, whatever its constructor. -/
inductive Effect (s : State) : State → Prop where
  | recorded (b : Byte) (q : PState) (h : q = .waitingForStatus ∨ ∃ k, q = .awaitFirst k ∧
      b.extractLsb' 4 4 = 1#1 ++ cvCode k) : Effect s (recordStatus b q s)
  | realTime (n : BitVec 3) : Effect s (dispatch Config.params (.rt n) 0#4 0#8 0#8 s)
  | data (v : BitVec 7) : Effect s (dataByte Config.params (dataOf v) s)
  | registration (c : BitVec 5) (en : Bool) : Effect s (registerSlot c en s)
  | command (c : BitVec 2) (l m : Byte) : Effect s (writeChannelOp Config.params c l m s)
  | emission (b : Byte) : Effect s (emitControlWord Config.params b s)
  | reset : Effect s (resetOp Config.params s)

/-- The high nibble of a status byte made of a nibble and a channel. -/
theorem highNibble_append (n ch : BitVec 4) : (n ++ ch : BitVec 8).extractLsb' 4 4 = n := by
  revert n ch; decide

/-- Every instruction has a next state, in every state, by one of these effects. -/
theorem exec_effect (i : Instr) (s : State) : ∃ t, exec i s = .next t ∧ Effect s t := by
  cases i with
  | noteOff ch => exact ⟨_, rfl, .recorded _ _ (.inr ⟨_, rfl, highNibble_append _ ch⟩)⟩
  | noteOn ch => exact ⟨_, rfl, .recorded _ _ (.inr ⟨_, rfl, highNibble_append _ ch⟩)⟩
  | polyAftertouch ch => exact ⟨_, rfl, .recorded _ _ (.inr ⟨_, rfl, highNibble_append _ ch⟩)⟩
  | controlChange ch => exact ⟨_, rfl, .recorded _ _ (.inr ⟨_, rfl, highNibble_append _ ch⟩)⟩
  | programChange ch => exact ⟨_, rfl, .recorded _ _ (.inr ⟨_, rfl, highNibble_append _ ch⟩)⟩
  | channelAftertouch ch => exact ⟨_, rfl, .recorded _ _ (.inr ⟨_, rfl, highNibble_append _ ch⟩)⟩
  | pitchBend ch => exact ⟨_, rfl, .recorded _ _ (.inr ⟨_, rfl, highNibble_append _ ch⟩)⟩
  | scF0 | scF1 | scF2 | scF3 | scF4 | scF5 | scF6 | scF7 => exact ⟨_, rfl, .recorded _ _ (.inl rfl)⟩
  | rtF8 | rtF9 | rtFA | rtFB | rtFC | rtFD | rtFE | rtFF => exact ⟨_, rfl, .realTime _⟩
  | data v => exact ⟨_, rfl, .data v⟩
  | register k => exact ⟨_, rfl, .registration k true⟩
  | unregister k => exact ⟨_, rfl, .registration k false⟩
  | registerBadKind7 en => exact ⟨_, rfl, .registration _ _⟩
  | registerBadKind24To31 en low => exact ⟨_, rfl, .registration _ _⟩
  | writeChannel c l m => exact ⟨_, rfl, .command c l m⟩
  | writeChannelInvalid l m => exact ⟨_, rfl, .command _ l m⟩
  | controlWord c am mode bcd => exact ⟨_, rfl, .emission _⟩
  | reset => exact ⟨_, rfl, .reset⟩

/-- A step takes the first stimulus: an idle edge, a held call, a run word, a clock edge, or a turn of the companion. -/
theorem step_cases (s : State) :
    (s.inputs = [] ∧ step s = clockEdge Config.params runFrame Edge.quiet (newCycle s)) ∨
    (∃ f rest, s.inputs = .call f :: rest ∧ needsBus f = true ∧ s.busy = true ∧
      step s = clockEdge Config.params runFrame Edge.quiet (newCycle s)) ∨
    (∃ f rest, s.inputs = .call f :: rest ∧ (needsBus f && s.busy) = false ∧ step s = runFrame f (s.taking rest)) ∨
    (∃ e rest, s.inputs = .clock e :: rest ∧ step s = clockEdge Config.params runFrame e (s.taking rest)) ∨
    (∃ rest, s.inputs = .glue :: rest ∧ step s = sinkEvent Config.params s.evPort.report (s.taking rest)) ∨
    (∃ rest, s.inputs = .tick :: rest ∧ step s = glideTick Config.params (s.taking rest)) := by
  unfold step stepOf
  cases s.inputs with
  | nil => exact .inl ⟨rfl, rfl⟩
  | cons x rest =>
    refine .inr ?_
    cases x with
    | call f =>
      cases h : needsBus f && s.busy
      · exact .inr (.inl ⟨f, rest, rfl, h, by simp [h]⟩)
      · rw [Bool.and_eq_true] at h
        exact .inl ⟨f, rest, rfl, h.1, h.2, by simp [h.1, h.2]⟩
    | clock e => exact .inr (.inr (.inl ⟨e, rest, rfl, rfl⟩))
    | glue => exact .inr (.inr (.inr (.inl ⟨rest, rfl, rfl⟩)))
    | tick => exact .inr (.inr (.inr (.inr ⟨rest, rfl, rfl⟩)))

/-- A quiet edge is one edge of the sequencer. -/
theorem clockEdge_quiet (p : Params) (run : Runner) (s : State) :
    clockEdge p run Edge.quiet s = .next (timerEdge p false none s) := rfl

/-- `exec` is the meaning at the machine's parameters (R4). -/
theorem execWith_params (i : Instr) (s : State) : execWith Config.params i s = exec i s := by cases i <;> rfl

/-- A word is run as for the machine's parameters (R4). -/
theorem runFrameWith_params : runFrameWith Config.params = runFrame := by
  funext f s
  simp only [runFrameWith, runFrame, decode, execWith_params]

end Sys2Proof.Machine
end

