-- ==== Sys2Proof/Tests/Slice0.lean ====
section
/-!
SUPPORT. Tests: the words of the opcode table written out, ill-formed terms, worked vectors of spec/95_test_vectors.md,
and for every statement with hypotheses a named state and operands that meet them.
-/

namespace Sys2Proof.Tests

open Sys2Proof.Machine Sys2Proof.Claims

/-! ## Words written out from the encodings (30_encoding.md, spec/opcode_table.json) -/

theorem test_decode_noteOff : decode (.rx 0b1000_0101#8) = .ok (.noteOff 5#4) := by decide
theorem test_decode_noteOn : decode (.rx 0b1001_1111#8) = .ok (.noteOn 15#4) := by decide
theorem test_decode_polyAftertouch : decode (.rx 0b1010_0001#8) = .ok (.polyAftertouch 1#4) := by decide
theorem test_decode_controlChange : decode (.rx 0b1011_0000#8) = .ok (.controlChange 0#4) := by decide
theorem test_decode_programChange : decode (.rx 0b1100_0101#8) = .ok (.programChange 5#4) := by decide
theorem test_decode_channelAftertouch : decode (.rx 0b1101_0010#8) = .ok (.channelAftertouch 2#4) := by decide
theorem test_decode_pitchBend : decode (.rx 0b1110_1111#8) = .ok (.pitchBend 15#4) := by decide
theorem test_decode_systemCommon :
    decode (.rx 0b1111_0000#8) = .ok .scF0 ∧ decode (.rx 0b1111_0001#8) = .ok .scF1 ∧
    decode (.rx 0b1111_0010#8) = .ok .scF2 ∧ decode (.rx 0b1111_0011#8) = .ok .scF3 ∧
    decode (.rx 0b1111_0100#8) = .ok .scF4 ∧ decode (.rx 0b1111_0101#8) = .ok .scF5 ∧
    decode (.rx 0b1111_0110#8) = .ok .scF6 ∧ decode (.rx 0b1111_0111#8) = .ok .scF7 := by decide
theorem test_decode_realTime :
    decode (.rx 0b1111_1000#8) = .ok .rtF8 ∧ decode (.rx 0b1111_1001#8) = .ok .rtF9 ∧
    decode (.rx 0b1111_1010#8) = .ok .rtFA ∧ decode (.rx 0b1111_1011#8) = .ok .rtFB ∧
    decode (.rx 0b1111_1100#8) = .ok .rtFC ∧ decode (.rx 0b1111_1101#8) = .ok .rtFD ∧
    decode (.rx 0b1111_1110#8) = .ok .rtFE ∧ decode (.rx 0b1111_1111#8) = .ok .rtFF := by decide
theorem test_decode_data :
    decode (.rx 0b0000_0000#8) = .ok (.data 0#7) ∧ decode (.rx 0b0111_1111#8) = .ok (.data 127#7) := by decide
theorem test_decode_register : decode (.reg 0b1_10111#6) = .ok (.register 23#5) := by decide
theorem test_decode_unregister : decode (.reg 0b0_00110#6) = .ok (.unregister 6#5) := by decide
theorem test_decode_registerBadKind7 :
    decode (.reg 0b0_00111#6) = .ok (.registerBadKind7 0#1) ∧
    decode (.reg 0b1_00111#6) = .ok (.registerBadKind7 1#1) := by decide
theorem test_decode_registerBadKind24To31 :
    decode (.reg 0b1_11000#6) = .ok (.registerBadKind24To31 1#1 0#3) ∧
    decode (.reg 0b0_11111#6) = .ok (.registerBadKind24To31 0#1 7#3) := by decide
/-- P5's command words 0x03412 and 0x30000. -/
theorem test_decode_writeChannel :
    decode (.cmd 0x03412#18) = .ok (.writeChannel 0#2 0x34#8 0x12#8) ∧
    decode (.cmd 0b10_11111111_00000001#18) = .ok (.writeChannel 2#2 0xFF#8 0x01#8) := by decide
theorem test_decode_writeChannelInvalid : decode (.cmd 0x30000#18) = .ok (.writeChannelInvalid 0#8 0#8) := by decide
theorem test_decode_controlWord : decode (.bus 0b10_01_011_0#8) = .ok (.controlWord 2#2 1#2 3#3 0#1) := by decide
theorem test_decode_reset : decode .rst = .ok .reset := rfl
/-- Bytes never emitted as control words (R78), refused by name. -/
theorem test_decode_never_emitted :
    decode (.bus 0b11_01_011_0#8) = .error (.controlWordChannel3 0xD6#8) ∧
    decode (.bus 0b00_00_011_0#8) = .error (.controlWordLatch 0x06#8) ∧
    decode (.bus 0b00_01_010_1#8) = .error (.controlWordFixedBits 0x15#8) := by decide
theorem test_decodeTableWord :
    decodeTableWord 8 0x93 = some (.noteOn 3#4) ∧ decodeTableWord 6 0x27 = some (.registerBadKind7 1#1) ∧
    decodeTableWord 18 0x03412 = some (.writeChannel 0#2 0x34#8 0x12#8) ∧
    decodeTableWord 24 0x30000 = some (.writeChannelInvalid 0#8 0#8) ∧ decodeTableWord 1 1 = some .reset ∧
    decodeTableWord 8 0x100 = none := by decide

/-! ## Ill-formed terms -/

theorem test_wf_register_kind7 : (Instr.register 7#5).wf = false := by decide
theorem test_wf_register_kind24 : (Instr.register 24#5).wf = false := by decide
theorem test_wf_unregister_kind31 : (Instr.unregister 31#5).wf = false := by decide
theorem test_wf_writeChannel_channel3 : (Instr.writeChannel 3#2 0#8 0#8).wf = false := by decide
theorem test_wf_controlWord_channel3 : (Instr.controlWord 3#2 1#2 3#3 0#1).wf = false := by decide
theorem test_wf_controlWord_latch : (Instr.controlWord 0#2 0#2 3#3 0#1).wf = false := by decide
theorem test_wf_controlWord_mode : (Instr.controlWord 0#2 1#2 2#3 0#1).wf = false := by decide
theorem test_wf_controlWord_bcd : (Instr.controlWord 0#2 1#2 3#3 1#1).wf = false := by decide

/-! ## Small states -/

/-- The parameters of 95_test_vectors.md, with the two values of `RS_MODE` and the illustrative values of P6. -/
def vectors (m : RsMode) : Params where
  rsMode := m
  evcntWPred := 31
  settleExtra := 0
  fMasterPred := 999999
  modeBits := 0b011#3
  bcdBit := 0#1
  addrCtrl := 3#2
  addrCnt := channelId
  voiceChannel := 0
  noteFreq := fun _ => 440
  divSilent := 0xFFFF#16
  fQuiescent := 0
  glideEn := true
  deadLow := 10
  deadHigh := 10
  freqFloor := 16
  freqCeiling := 20000
  bendBelow := fun base _ => base - 1
  bendAbove := fun base _ => base + 1

/-- A state that awaits data, with a recorded status byte and a stored byte. -/
def awaiting (q : PState) (status data1 : Byte) : State :=
  { State.reset with pstate := q, status := status, data1 := data1 }

/-- A state with some stimuli offered. -/
def offered (xs : List Stimulus) : State := { State.reset with inputs := xs }

/-- A state whose cache holds `(0x34, 0x12)` for channel 0 (V-D31, row 1). -/
def cached : State :=
  { State.reset with cache := { State.reset.cache with c0 := { lsbc := 0x34#8, msbc := 0x12#8, lsbv := true, msbv := true } } }

/-- A state in the middle of a bus sequence, at the end of a settle delay. -/
def sequencing : State :=
  { State.reset with
    pins := { csn := false, wrn := false, a := 3#2, d := 0x36#8 }
    seq := .busy { c := 0, l := 1#8, m := 2#8, dl := true, dm := true } [.wrHigh, .settle, .csHigh] 0 }

/-- A state whose next edge lowers the strobe of the last register write of a command. -/
def strobing : State :=
  { State.reset with
    pins := { csn := false, wrn := true, a := 0#2, d := 2#8 }
    seq := .busy { c := 0, l := 1#8, m := 2#8, dl := true, dm := true } [.wrLow, .settle, .wrHigh, .settle, .csHigh] 0 }

/-- A state that has accepted a command which changes the MSB of channel 0 alone, and has performed none of its pin
operations yet. -/
def commanded : State := timerEdge Config.params true (some (0#2 ++ (0x34#8 ++ 0x13#8))) cached

/-- A state whose voice sounds. -/
def sounding (held actual target : Nat) : State :=
  { State.reset with voice := { notesHeld := held, baseFrequency := target, pitchBendValue := 0
                                targetFrequency := target, actualFrequency := actual } }

/-- A field of the next state, if there is one. -/
def after {α : Type} (r : Result) (f : State → α) : Option α :=
  match r with
  | .next s => some (f s)
  | .fault _ => none
  | .refused _ => none

/-! ## Worked vectors (spec/95_test_vectors.md) -/

/-- V-S1, first byte: 0x93 from reset. -/
theorem test_noteOn_status :
    after (exec (.noteOn 3#4) State.reset) (fun s => (s.pstatePort, s.status, s.outCode)) =
      some (3#4, 0x93#8, 0#2) := by decide
/-- V-S1, third byte: NOTE_ON(3, 0x3C, 0x64). -/
theorem test_noteOn_completes :
    after (exec (.data 0x64#7) (awaiting (.awaitSecond .noteOn) 0x93#8 0x3C#8)) (fun s => (s.evPort, s.data1, s.evcnt)) =
      some (.reports { kind := .cv .noteOn, channel := 3#4, data1 := 0x3C#8, data2 := 0x64#8, registered := false }, 0#8, 1)
    := by decide
/-- V-S1, the two ends by `RS_MODE`: code 3 or code 0. -/
theorem test_completion_modes :
    (dataByte (vectors .running) 0x64#8 (awaiting (.awaitSecond .noteOn) 0x93#8 0x3C#8)).pstatePort = 3#4 ∧
    (dataByte (vectors .strict) 0x64#8 (awaiting (.awaitSecond .noteOn) 0x93#8 0x3C#8)).pstatePort = 0#4 := by decide
/-- V-D20: `[0xC5, 0x07]` gives PROGRAM_CHANGE(5, 0x07, 0x00). -/
theorem test_programChange_completes :
    after (exec (.data 0x07#7) (awaiting (.awaitFirst .programChange) 0xC5#8 0#8)) State.evPort =
      some (.reports { kind := .cv .programChange, channel := 5#4, data1 := 0x07#8, data2 := 0#8, registered := false })
    := by decide
/-- V-D16: RT_FA between the two data bytes; DATA1 survives. -/
theorem test_realTime_between_data_bytes :
    after (exec .rtFA (awaiting (.awaitSecond .noteOn) 0x90#8 0x40#8))
      (fun s => (s.evKind, s.pstatePort, s.data1, s.evcnt)) = some (18#5, 4#4, 0x40#8, 1) := by decide
/-- V-D13: 0xF6 cuts a message short. -/
theorem test_systemCommon_cuts :
    after (exec .scF6 (awaiting (.awaitSecond .noteOn) 0x90#8 0x40#8)) (fun s => (s.pstatePort, s.status, s.data1)) =
      some (0#4, 0xF6#8, 0#8) := by decide
/-- V-S7: a data byte in `Error` is discarded. -/
theorem test_error_discards :
    after (exec (.data 0x40#7) (awaiting .error 0#8 0#8)) (fun s => (s.pstatePort, s.outCode, s.evValid)) =
      some (15#4, 0#2, false) := by decide
/-- V-D24: a data byte in `AwaitSecond(PROGRAM_CHANGE)` (10) is discarded. -/
theorem test_unreachable_discards :
    after (exec (.data 0x11#7) (awaiting (.awaitSecond .programChange) 0#8 0#8)) (fun s => (s.pstatePort, s.outCode)) =
      some (10#4, 0#2) := by decide
/-- V-D25: `REGISTER 1`, `REGISTER 8`, `REGISTER 16` make `HREG` 0x010102. -/
theorem test_register_bits :
    after (andThen (andThen (exec (.register 1#5) State.reset) (exec (.register 8#5))) (exec (.register 16#5)))
      (fun s => (s.hreg, s.regStatus)) = some (0x010102#24, 0#2) := by decide
/-- V-D25: `REGISTER 7` and `UNREGISTER 24` give status 3. -/
theorem test_register_out_of_range :
    after (exec (.registerBadKind7 1#1) State.reset) (fun s => (s.hreg, s.regStatus)) = some (0#24, 3#2) ∧
    after (exec (.registerBadKind24To31 0#1 0#3) State.reset) (fun s => (s.hreg, s.regStatus)) = some (0#24, 3#2)
    := by decide
/-- V-D28: the counter wraps at the default width, and at width 8. -/
theorem test_counter_wraps :
    after (exec .rtF8 { State.reset with evcnt := 0xFFFFFFFF }) State.evcnt = some 0 ∧
    after (execWith { vectors .running with evcntWPred := 7 } .rtF8 { State.reset with evcnt := 0xFF }) State.evcnt =
      some 0 := by decide
/-- D33: every payload line of the output ports is 0 at reset. -/
theorem test_outputs_at_reset :
    (State.reset.outCode, State.reset.evKind, State.reset.evChannel, State.reset.evData1, State.reset.evData2,
      State.reset.evRegistered, State.reset.regStatus) = (0#2, 0#5, 0#4, 0#8, 0#8, false, 0#2) := by decide
/-- V-D30: a registration and its byte on one edge. -/
theorem test_same_edge :
    after (step (offered [.clock { rst := false, rx := some 0xF8#8, reg := some 0b1_10000#6, cmd := none, hold := false }]))
      (fun s => (s.evRegistered, s.regStatus, s.outCode)) = some (true, 0#2, 1#2) := by decide
/-- V-D31, row 1. -/
theorem test_write_both_bytes :
    after (exec (.writeChannel 0#2 0x34#8 0x12#8) State.reset) (fun s => (registerWrites s.pinOps State.reset.pins, s.cache.c0)) =
      some ([(3#2, 0x36#8), (0#2, 0x34#8), (0#2, 0x12#8)], { lsbc := 0x34#8, msbc := 0x12#8, lsbv := true, msbv := true })
    := by decide
/-- V-D34: the pin operations of V-D31, row 3. -/
theorem test_write_lsb_only :
    after (exec (.writeChannel 0#2 0x35#8 0x12#8) cached) State.pinOps =
      some [.csLow, .setAddr 3#2, .setData 0x16#8, .wrLow, .settle, .wrHigh, .settle, .setAddr 0#2, .setData 0x35#8,
        .wrLow, .settle, .wrHigh, .settle, .csHigh] := by decide
/-- V-D31, row 6: channel 3 does nothing. -/
theorem test_write_invalid :
    after (exec (.writeChannelInvalid 0xAA#8 0xBB#8) cached) (fun s => (s.pinOps, s.cache, s.pins)) =
      some ([], cached.cache, cached.pins) := by decide
/-- R188: the control word of channel 0, MSB only, goes out inside its command; R32: with the bus idle it does not. -/
theorem test_controlWord_emitted :
    after (exec (.controlWord 0#2 2#2 3#3 0#1) commanded) (fun s => registerWrites s.pinOps commanded.pins) =
      some [(3#2, 0x26#8)] ∧
    after (exec (.controlWord 0#2 2#2 3#3 0#1) cached) (fun s => (s.pinOps, s.pins)) = some ([], cached.pins) := by decide
/-- V-D33: other mode bits make the first control word 0x35. -/
theorem test_control_byte_parameters : controlByte 0#2 3#2 0b010#3 1#1 = 0x35#8 := by decide
/-- V-D35, `T_SETTLE = 1`: the pins after edges 0, 1, 5 and 8, and `busy` until edge 9. -/
theorem test_cycle_schedule :
    let s := timerEdge (vectors .running) false (some 0x03412#18) State.reset
    s.pins = { csn := false, wrn := true, a := 3#2, d := 0x36#8 } ∧
    (seqEdges (vectors .running) 1 s).pins = { csn := false, wrn := false, a := 3#2, d := 0x36#8 } ∧
    (seqEdges (vectors .running) 5 s).pins = { csn := false, wrn := true, a := 0#2, d := 0x34#8 } ∧
    ((seqEdges (vectors .running) 8 s).busy, (seqEdges (vectors .running) 8 s).cache.c0.lsbv) = (true, false) ∧
    ((seqEdges (vectors .running) 9 s).busy, (seqEdges (vectors .running) 9 s).pins.csn) = (false, true) := by decide
/-- R290: a held edge moves no pin, and the next edge goes on as if it had not been. -/
theorem test_hold :
    (timerEdge (vectors .running) true none sequencing).pins = sequencing.pins ∧
    (timerEdge (vectors .running) false none sequencing).pins.wrn = true := by decide
/-- R197: `SET_FREQ 3, 440` is the ignored command. -/
theorem test_setFreq_channel3 :
    setFreq (vectors .running) 3#2 440 = some (.cmd (3#2 ++ (0xE0#8 ++ 0x08#8))) := by decide
/-- R272: reset during a bus sequence. -/
theorem test_reset_while_busy :
    after (exec .reset sequencing) (fun s => (s.busy, s.pins.csn, s.pins.wrn)) = some (false, true, true) := by decide
/-- V-D37, V-D44: divisors. -/
theorem test_divisor :
    divisor (vectors .running) 440 = some 0x08E0 ∧ divisor (vectors .running) 15 = some 0x1046A ∧
    (divisorLsb 0x1046A, divisorMsb 0x1046A) = (0x6A#8, 0x04#8) ∧ divisor (vectors .running) 0 = none := by decide
/-- V-D49: pitch-bend assembly. -/
theorem test_bend : bendValue 0x00#8 0x40#8 = 0 ∧ bendValue 0x7F#8 0x3F#8 = -1 ∧ bendValue 0x00#8 0x60#8 = 4096 := by decide
/-- V-D50, V-D51: glide steps. -/
theorem test_glide :
    [1, 9, 10, 11, 20, 21, 101, 8191].map glideStep = [1, 1, 1, 2, 2, 3, 11, 820] ∧
    glideMove 440 494 = 446 ∧ glideMove 105 100 = 104 := by decide
/-- P6, byte 3: the note-on's command `(0, 0xE0, 0x08)`. -/
theorem test_noteOn_command :
    after (noteOn (vectors .running) 440 State.reset) State.inputs = some [.call (.cmd (0#2 ++ (0xE0#8 ++ 0x08#8)))] := by
  decide
/-- The first instruction after reset, from each port. -/
theorem test_fetch_from_reset :
    after (step (State.reset.withFetchWord 8 0x93)) State.status = some 0x93#8 ∧
    after (step (State.reset.withFetchWord 6 0x21)) State.hreg = some 0x2#24 ∧
    after (step (State.reset.withFetchWord 18 0x03412)) (fun s => s.cache.c0.lsbc) = some 0x34#8 ∧
    after (step (State.reset.withFetchWord 1 1)) State.busy = some false := by decide

/-! ## States that meet the hypotheses of the statements -/

theorem witness_DecodeOfEncode :
    (Instr.register 23#5).wf = true ∧ (Instr.register 8#5).wf = true ∧ (Instr.unregister 6#5).wf = true ∧
    (Instr.writeChannel 2#2 0xFF#8 0#8).wf = true ∧ (Instr.controlWord 2#2 3#2 3#3 0#1).wf = true := by decide
theorem witness_EncodeOfDecode :
    decode (.reg 0b1_01000#6) = .ok (.register 8#5) ∧ decode (.cmd 0x2FFFF#18) = .ok (.writeChannel 2#2 0xFF#8 0xFF#8) := by
  decide
theorem witness_EveryByteHasOneClass :
    decode (.rx 0x7F#8) = .ok (.data 127#7) ∧ decode (.rx 0x80#8) = .ok (.noteOff 0#4) ∧
    decode (.rx 0xEF#8) = .ok (.pitchBend 15#4) ∧ decode (.rx 0xF0#8) = .ok .scF0 ∧ decode (.rx 0xF7#8) = .ok .scF7 ∧
    decode (.rx 0xF8#8) = .ok .rtF8 := by decide
theorem witness_StepRunsDecodedInstruction :
    (offered [.call (.cmd 0x03412#18), .glue]).inputs = .call (.cmd 0x03412#18) :: [.glue] ∧
    decode (.cmd 0x03412#18) = .ok (.writeChannel 0#2 0x34#8 0x12#8) ∧
    (needsBus (.cmd 0x03412#18) = true → (offered [.call (.cmd 0x03412#18), .glue]).seq = .idle) := by decide
theorem witness_CallWaitsForTheBus :
    ({ sequencing with inputs := [.call (.cmd 0#18)] } : State).inputs = .call (.cmd 0#18) :: [] ∧
    needsBus (.cmd 0#18) = true ∧ ({ sequencing with inputs := [.call (.cmd 0#18)] } : State).seq ≠ .idle := by decide
theorem witness_NothingOfferedChangesNothing : State.reset.inputs = [] ∧ State.reset.seq = .idle := ⟨rfl, rfl⟩
/-- A clock edge with a registration, a byte and a command. -/
def both (hold : Bool) : Edge :=
  { rst := false, rx := some 0x90#8, reg := some 0b1_00001#6, cmd := some 0x03412#18, hold := hold }

/-- A registration and a byte, a byte alone, a registration alone. -/
theorem witness_ClockEdgeOrder :
    (offered [.clock (both false)]).inputs = .clock (both false) :: [] ∧
    (offered [.clock { both true with reg := none }]).inputs =
      .clock { rst := false, rx := some 0x90#8, reg := none, cmd := some 0x03412#18, hold := true } :: [] ∧
    (offered [.clock { both true with rx := none }]).inputs =
      .clock { rst := false, rx := none, reg := some 0b1_00001#6, cmd := some 0x03412#18, hold := true } :: [] :=
  ⟨rfl, rfl, rfl⟩
theorem witness_RegisterOnTheEdgeOfTheByte :
    (offered [.clock { both false with rx := some (rtByte 7#3), reg := some (1#1 ++ kindCode (.rt 7#3)), cmd := none }]).inputs =
      .clock { rst := false, rx := some (rtByte 7#3), reg := some (1#1 ++ kindCode (.rt 7#3)), cmd := none,
               hold := false } :: [] := rfl
theorem witness_NoInputStopsTheBlocks :
    (∀ b rest, (offered [.call (.rx 0xFF#8)]).inputs ≠ .call (.bus b) :: rest) ∧
    (∀ rest, (offered [.call (.rx 0xFF#8)]).inputs ≠ .glue :: rest) ∧
    (∀ rest, (offered [.call (.rx 0xFF#8)]).inputs ≠ .tick :: rest) := by
  refine ⟨?_, ?_, ?_⟩ <;> intros <;> simp [offered]
/-- A state in the middle of a message, with a byte offered. -/
theorem witness_StepKeepsInvariants :
    Inv { awaiting (.awaitSecond .noteOn) 0x90#8 0x40#8 with inputs := [.call .rst] } ∧
    ∃ t, step { awaiting (.awaitSecond .noteOn) 0x90#8 0x40#8 with inputs := [.call .rst] } = .next t := by
  refine ⟨⟨?_, ⟨fun h => absurd rfl (h .noteOn), by decide⟩, rfl, by unfold pstateReachable; decide, by unfold counterInRange; decide, rfl, ⟨rfl, rfl⟩,
    ⟨by decide, fun e h => by cases h⟩, ⟨fun _ => ⟨rfl, rfl, rfl⟩, by decide⟩, fun _ _ _ h => by cases h⟩, _, rfl⟩
  intro k hk
  have hk' : k = .noteOn := by rcases hk with h | h <;> cases h; rfl
  subst hk'; decide
theorem witness_ResetWinsOnItsEdge :
    ({ sequencing with inputs := [.clock { both true with rst := true }] } : State).inputs =
      .clock { rst := true, rx := some 0x90#8, reg := some 0b1_00001#6, cmd := some 0x03412#18, hold := true } :: [] := rfl
theorem witness_StrayDataByteIsDiscarded :
    State.reset.pstate = .waitingForStatus ∧ (awaiting .error 0#8 0#8).pstate = .error ∧
    (awaiting (.awaitSecond .programChange) 0#8 0#8).pstate = .awaitSecond .programChange ∧
    (awaiting (.awaitSecond .channelAftertouch) 0#8 0#8).pstate = .awaitSecond .channelAftertouch := ⟨rfl, rfl, rfl, rfl⟩
theorem witness_FirstDataByteIsStored :
    CvKind.pitchBend ∈ [CvKind.noteOff, .noteOn, .polyAftertouch, .controlChange, .pitchBend] ∧
    (awaiting (.awaitFirst .pitchBend) 0xEF#8 0#8).pstate = .awaitFirst .pitchBend := by decide
theorem witness_SecondDataByteCompletes :
    CvKind.noteOff ∈ [CvKind.noteOff, .noteOn, .polyAftertouch, .controlChange, .pitchBend] ∧
    (awaiting (.awaitSecond .noteOff) 0x80#8 0x7F#8).pstate = .awaitSecond .noteOff := by decide
theorem witness_OnlyDataByteCompletes :
    (awaiting (.awaitFirst .programChange) 0xC5#8 0#8).pstate = .awaitFirst .programChange ∧
    (awaiting (.awaitFirst .channelAftertouch) 0xD2#8 0#8).pstate = .awaitFirst .channelAftertouch := ⟨rfl, rfl⟩
theorem witness_ErrorIsLeftByAStatusByte :
    (awaiting .error 0#8 0#8).pstate = .error ∧
    ∀ b ∈ [0x00#8, 0x7F#8, 0xF8#8, 0xFF#8], b.toNat ≤ 0x7F ∨ 0xF8 ≤ b.toNat := by decide
/-- A cut at the first data byte and at the second, of a two-data-byte message and of a one-data-byte one. -/
theorem witness_StatusByteDropsHalfAMessage :
    (awaiting (.awaitFirst .programChange) 0xC0#8 0#8).pstate = .awaitFirst .programChange ∧
    (awaiting (.awaitSecond .noteOn) 0x90#8 0x40#8).pstate = .awaitSecond .noteOn ∧
    ([] : List (BitVec 7)).length < (runBytes .programChange 0#7 0#7).length ∧
    [0x40#7].length < (runBytes .noteOn 0#7 0#7).length := by decide
/-- A registration before the first data byte and before the second, and before the only one. -/
theorem witness_RegistrationInsideAMessage :
    [0xB2#8] ++ [0x07#8, 0x64#8] = messageBytes .controlChange 2#4 0x07#7 0x64#7 ∧
    [0xB2#8, 0x07#8] ++ [0x64#8] = messageBytes .controlChange 2#4 0x07#7 0x64#7 ∧
    [0xC5#8] ++ [0x07#8] = messageBytes .programChange 5#4 0x07#7 0#7 ∧ [0x07#8] ≠ [] := by decide
theorem witness_RegistrationWritesOneSlot :
    ∀ k ∈ [0#5, 6#5, 8#5, 23#5], k.toNat ≤ 6 ∨ 8 ≤ k.toNat ∧ k.toNat ≤ 23 := by decide
/-- Only the LSB dirty, only the MSB dirty, both dirty. -/
theorem witness_WriteChannelWritesDirtyBytes :
    cached.seq = .idle ∧ (0#2).toNat = (0 : TimerCh).val ∧ (2#2).toNat = (2 : TimerCh).val ∧
    (true, false) = (!(cacheGet cached.cache 0).lsbv || (cacheGet cached.cache 0).lsbc != 0x35#8,
      !(cacheGet cached.cache 0).msbv || (cacheGet cached.cache 0).msbc != 0x12#8) ∧
    (false, true) = (!(cacheGet cached.cache 0).lsbv || (cacheGet cached.cache 0).lsbc != 0x34#8,
      !(cacheGet cached.cache 0).msbv || (cacheGet cached.cache 0).msbc != 0x13#8) ∧
    (true, true) = (!(cacheGet cached.cache 2).lsbv || (cacheGet cached.cache 2).lsbc != 0#8,
      !(cacheGet cached.cache 2).msbv || (cacheGet cached.cache 2).msbc != 0#8) := by decide
theorem witness_NothingDirtyIsSkipped :
    cached.seq = .idle ∧ (0#2).toNat = (0 : TimerCh).val ∧
    cacheGet cached.cache 0 = { lsbc := 0x34#8, msbc := 0x12#8, lsbv := true, msbv := true } := by decide
theorem witness_ChannelThreeIsIgnored : cached.seq = .idle := rfl
theorem witness_BusyTurnsCommandsAway : sequencing.seq ≠ .idle := by decide
/-- The bus idle; the whole register write left, its second half left; the control word out and the data bytes left, all of
them and none; another byte. -/
theorem witness_ControlWordIsEmitted :
    State.reset.seq = .idle ∧ (0#2).toNat = (0 : TimerCh).val ∧ (false || true) = true ∧
    [] ++ ([.csLow] ++ oneWrite 3#2 0x26#8) = [.csLow] ++ oneWrite 3#2 0x26#8 ∧
    [.csLow, .setAddr 3#2, .setData 0x26#8, .wrLow, .settle] ++ [.wrHigh, .settle] = [.csLow] ++ oneWrite 3#2 0x26#8 ∧
    oneWrite 0#2 0x13#8 ++ [.csHigh] <:+ oneWrite 0#2 0x13#8 ++ [.csHigh] ∧ [.csHigh] <:+ oneWrite 0#2 0x13#8 ++ [.csHigh] ∧
    (0#2).zeroExtend 8 <<< 6 ||| (2#2).zeroExtend 8 <<< 4 ||| 0x06#8 = 0x26#8 ∧
    commanded.seq = .busy { c := 0, l := 0x34#8, m := 0x13#8, dl := false, dm := true }
      ([.csLow] ++ oneWrite 3#2 0x26#8 ++ (oneWrite 0#2 0x13#8 ++ [.csHigh])) 0 ∧
    (0#2, 1#2, 3#3, 0#1) ≠ (0#2, 2#2, 3#3, 0#1) := by decide
theorem witness_CacheHoldsTheRequest : cached.seq = .idle ∧ (1#2).toNat = (1 : TimerCh).val ∧ (2 : TimerCh) ≠ 1 := by decide
theorem witness_WriteTwiceWritesOnce :
    State.reset.seq = .idle ∧ 2#2 ≠ 3#2 ∧
    State.reset.cache = { c0 := .reset, c1 := .reset, c2 := .reset } ∧ CacheEntry.reset.lsbv = false ∧
    CacheEntry.reset.msbv = false ∧ State.reset.pins.wrn = true := by decide
theorem witness_RegisterWritesOfACommand :
    State.reset.seq = .idle ∧ State.reset.pins.wrn = true ∧
    exec (.writeChannel 1#2 0#8 0#8) State.reset =
      .next (writeChannelOp Config.params 1#2 0#8 0#8 State.reset) := ⟨rfl, rfl, rfl⟩
theorem witness_CacheRemembersTheLastCommand : State.reset.seq = .idle := rfl
theorem witness_CycleLevelRefinesFunctionLevel :
    (offered [.clock (offering (0#2 ++ (0x34#8 ++ 0x12#8)))]).seq = .idle ∧
    (offered [.clock (offering (0#2 ++ (0x34#8 ++ 0x12#8)))]).inputs = [.clock (offering (0#2 ++ (0x34#8 ++ 0x12#8)))] ∧
    (0#2).toNat = (0 : TimerCh).val ∧
    0 < writesOf (pendingOf (offered [.clock (offering (0#2 ++ (0x34#8 ++ 0x12#8)))]).cache 0 0x34#8 0x12#8) ∧
    ∃ u, exec (.writeChannel 0#2 0x34#8 0x12#8) (offered [.clock (offering (0#2 ++ (0x34#8 ++ 0x12#8)))]) = .next u :=
  ⟨rfl, rfl, rfl, by decide, _, rfl⟩
theorem witness_BlocksLeaveEachOtherAlone :
    (∃ t, exec (.noteOn 0#4) State.reset = .next t) ∧ Instr.noteOn 0#4 ≠ .reset ∧ forDecoder (.noteOn 0#4) = true ∧
    (∃ t, exec (.writeChannel 0#2 0#8 0#8) State.reset = .next t) ∧ Instr.writeChannel 0#2 0#8 0#8 ≠ .reset ∧
    forTimer (.writeChannel 0#2 0#8 0#8) = true := ⟨⟨_, rfl⟩, by decide, by decide, ⟨_, rfl⟩, by decide, by decide⟩
theorem witness_BlocksLearnNothingOfEachOther :
    (∃ t, exec (.noteOn 0#4) State.reset = .next t) ∧ (∃ t, exec (.noteOn 0#4) cached = .next t) ∧
    forDecoder (.noteOn 0#4) = true ∧ sameDecoder State.reset cached ∧
    (∃ t, exec (.writeChannel 0#2 0#8 0#8) State.reset = .next t) ∧
    (∃ t, exec (.writeChannel 0#2 0#8 0#8) (awaiting .error 1#8 0#8) = .next t) ∧
    forTimer (.writeChannel 0#2 0#8 0#8) = true ∧ sameTimer State.reset (awaiting .error 1#8 0#8) :=
  ⟨⟨_, rfl⟩, ⟨_, rfl⟩, by decide, ⟨rfl, rfl, rfl, rfl, rfl, rfl, rfl, rfl, rfl⟩, ⟨_, rfl⟩, ⟨_, rfl⟩, by decide,
    ⟨rfl, rfl, rfl, rfl⟩⟩
/-- For each clause an instruction that does write what the clause is about. -/
theorem witness_OnlyTheseInstructionsWrite :
    (∃ t, exec (.register 23#5) State.reset = .next t ∧ t.hreg ≠ State.reset.hreg) ∧
    (∃ t, exec .rtFF State.reset = .next t ∧ t.evcnt ≠ State.reset.evcnt) ∧
    (∃ t, exec (.writeChannel 2#2 0#8 0#8) State.reset = .next t ∧ t.cache ≠ State.reset.cache) ∧
    (∃ t, exec .scF0 State.reset = .next t ∧ t.status ≠ State.reset.status) :=
  ⟨⟨_, rfl, by decide⟩, ⟨_, rfl, by decide⟩, ⟨_, rfl, by decide⟩, ⟨_, rfl, by decide⟩⟩
theorem witness_DivisorAndItsBytes : (vectors .running).fMaster = 1000000 ∧ 0 < 440 ∧ 3#2 ≠ 2#2 := by decide
/-- Bends at the two limits of the deadband and just outside them. -/
theorem witness_ComputeFrequencyProperties :
    (-((vectors .running).deadLow : Int) ≤ -10 ∧ (-10 : Int) ≤ ((vectors .running).deadHigh : Int)) ∧
    (10 : Int) ≤ ((vectors .running).deadHigh : Int) ∧ (-11 : Int) < -((vectors .running).deadLow : Int) ∧
    ((vectors .running).deadHigh : Int) < 11 := by decide
theorem witness_NoteOnReprograms :
    computeFrequency (vectors .running) 0 State.reset.voice.pitchBendValue = 0 ∧
    0 < computeFrequency (vectors .running) 1 State.reset.voice.pitchBendValue := by decide
/-- As many note-offs as notes held, one fewer, and none held. -/
theorem witness_NoteOffsSilenceOnce :
    (0 < (sounding 2 440 440).voice.notesHeld ∧ (sounding 2 440 440).voice.notesHeld ≤ 2) ∧
    1 < (sounding 2 440 440).voice.notesHeld ∧ (sounding 0 440 440).voice.notesHeld = 0 := by decide
theorem witness_VelocityZeroIsANoteOff :
    ({ kind := .cv .noteOn, channel := 0#4, data1 := 1#8, data2 := 1#8, registered := false } : Event).registered = false :=
  rfl
theorem witness_PitchBendUpdates :
    State.reset.voice.notesHeld = 0 ∧ 0 < (sounding 1 440 440).voice.notesHeld ∧ (vectors .running).glideEn = true ∧
    ({ vectors .running with glideEn := false } : Params).glideEn = false ∧
    computeFrequency { vectors .running with glideEn := false } (sounding 1 0 0).voice.baseFrequency 10 = 0 ∧
    0 < computeFrequency { vectors .running with glideEn := false } (sounding 1 440 440).voice.baseFrequency 11 := by decide
/-- Up, down by a gap of 10 and of 11, down onto frequency 0, and no gap. -/
theorem witness_GlideTickMovesTowardTarget :
    (vectors .running).glideEn = true ∧ 0 < (sounding 1 100 110).voice.notesHeld ∧
    (sounding 1 100 110).voice.actualFrequency < (sounding 1 100 110).voice.targetFrequency ∧ gap 100 110 ≤ 10 ∧
    (sounding 1 111 100).voice.targetFrequency < (sounding 1 111 100).voice.actualFrequency ∧
    0 < 111 - (gap 111 100 + 9) / 10 ∧ (sounding 1 1 0).voice.targetFrequency < (sounding 1 1 0).voice.actualFrequency ∧
    1 - (gap 1 0 + 9) / 10 = 0 ∧
    (sounding 1 100 100).voice.actualFrequency = (sounding 1 100 100).voice.targetFrequency ∧
    (sounding 0 100 110).voice.notesHeld = 0 ∧
    ({ vectors .running with glideEn := false } : Params).glideEn = false := by decide
theorem witness_GlideConverges : (440 : Nat) ≠ 494 ∧ 440 ≤ 494 ∧ gap 440 494 ≤ 54 ∧ 494 ≤ 494 := by decide
theorem witness_RealTimeBytesAreTransparent : counterInRange { State.reset with evcnt := 0xFFFFFFFF } := by
  unfold counterInRange; decide
/-- A range for the counter; and ports that report and ports that do not. -/
theorem witness_EventCounterCountsDispatches :
    counterInRange State.reset ∧
    (∃ t e, exec .rtF8 State.reset = .next t ∧ t.outPort = .reports .outDispatched ∧ t.evPort = .reports e) ∧
    (∃ t, exec (.register 1#5) State.reset = .next t ∧ t.regPort = .reports .outNone) ∧
    (∀ o, State.reset.outPort ≠ .reports o) ∧ (∀ e, State.reset.evPort ≠ .reports e) ∧
    ∀ o, State.reset.regPort ≠ .reports o :=
  ⟨by unfold counterInRange; decide, ⟨_, _, rfl, rfl, rfl⟩, ⟨_, rfl, rfl⟩, fun _ h => (by cases h), fun _ h => (by cases h),
    fun _ h => by cases h⟩
theorem witness_EventsReachTheCompanion :
    (1#8 : Byte) ≠ 0x00#8 ∧ CvKind.channelAftertouch ∈
      [CvKind.polyAftertouch, .controlChange, .programChange, .channelAftertouch] := by decide
/-- Any parameters: those of the vectors. -/
theorem witness_ParametersAreArguments :
    (offered [.call (.cmd 0x03412#18), .glue]).inputs = .call (.cmd 0x03412#18) :: [.glue] ∧
    decodeWith (vectors .strict) (.cmd 0x03412#18) = .ok (.writeChannel 0#2 0x34#8 0x12#8) ∧
    (needsBus (.cmd 0x03412#18) = true → (offered [.call (.cmd 0x03412#18), .glue]).seq = .idle) ∧
    (offered [.clock (both true)]).inputs = .clock (both true) :: [] ∧ State.reset.inputs = [] ∧
    ({ sequencing with inputs := [.call (.cmd 0#18)] } : State).inputs = .call (.cmd 0#18) :: [] ∧
    ({ sequencing with inputs := [.call (.cmd 0#18)] } : State).seq ≠ .idle ∧
    (offered [.glue]).inputs = .glue :: [] ∧ (offered [.tick]).inputs = .tick :: [] := by decide
/-- An edge that lowers the strobe and begins a settle delay; after it held edges that offer everything, and as many edges
that are not held as the delay lasts; and edges of which one goes on, two are held, one goes on. -/
theorem witness_LongerDelaysOnlyDelay :
    (isEdge strobing ∧ sequencerInOrder strobing ∧
      ∃ t, step strobing = .next t ∧ .settle ∈ t.pinOps ∧ .wrLow ∈ t.pinOps ∧ t.seq ≠ .idle) ∧
    ((∀ e ∈ [both true, both true], e.rst = false) ∧
      [both true, both true].countP (fun e => !e.hold) < Config.params.tSettle) ∧
    ((∀ e ∈ List.replicate (Config.params.tSettle - 1) (both false), e.rst = false) ∧
      (List.replicate (Config.params.tSettle - 1) (both false)).countP (fun e => !e.hold) < Config.params.tSettle) ∧
    ({ sequencing with inputs := [.clock (holdEdge false), .clock (holdEdge true), .clock (holdEdge true),
        .clock (holdEdge false)] } : State).inputs =
      [false, true, true, false].map (fun h => .clock (holdEdge h)) ∧
    [false, true, true, false].count false = 2 := by
  refine ⟨⟨.inl rfl, ?_, _, rfl, by decide, by decide, fun h => by cases h⟩, ⟨by decide, Nat.succ_pos _⟩, ⟨?_, ?_⟩,
    by decide, by decide⟩
  · intro x ops n h
    cases h
    exact ⟨rfl, by decide, by decide, Nat.succ_pos _⟩
  · intro e he
    rw [List.eq_of_mem_replicate he]; rfl
  · rw [List.countP_replicate]
    exact Nat.lt_succ_self _
theorem witness_CompanionActsWhenScheduled :
    (offered [.glue]).inputs = .glue :: [] ∧ (offered [.tick]).inputs = .tick :: [] := ⟨rfl, rfl⟩

end Sys2Proof.Tests
end

/-!
PROOFS. The status bytes of 40_midi_status_bytes.md. A byte of each class is given by its kind and, for a channel-voice
byte, its channel (`statusByte`, `scByte`, `rtByte`): what it decodes to and what running it does are said once for each
class, and the statements read off these equations.
-/

namespace Sys2Proof.Machine

open Sys2Proof.Claims

/-! ## The instruction of a status byte -/

/-- The instruction of a kind's status byte (R67). -/
def cvInstr : CvKind → BitVec 4 → Instr
  | .noteOff => .noteOff
  | .noteOn => .noteOn
  | .polyAftertouch => .polyAftertouch
  | .controlChange => .controlChange
  | .programChange => .programChange
  | .channelAftertouch => .channelAftertouch
  | .pitchBend => .pitchBend

/-- The high nibble of a kind's status byte is the top bit and the kind's code (R63). -/
theorem statusByte_eq_nibble_append (k : CvKind) (ch : BitVec 4) :
    statusByte k ch = (1#1 ++ cvCode k : BitVec 4) ++ ch := by
  revert ch
  cases k <;> decide

theorem decode_statusByte (k : CvKind) (ch : BitVec 4) : decode (.rx (statusByte k ch)) = .ok (cvInstr k ch) := by
  revert ch
  cases k <;> decide

theorem decode_scByte (n : BitVec 3) : decode (.rx (scByte n)) = .ok (decodeSystemCommon n) := by
  revert n
  decide

theorem decode_rtByte (n : BitVec 3) : decode (.rx (rtByte n)) = .ok (decodeRealTime n) := by
  revert n
  decide

/-! ## What running it does -/

theorem exec_cvInstr (k : CvKind) (ch : BitVec 4) (s : State) :
    exec (cvInstr k ch) s = .next (recordStatus (statusByte k ch) (.awaitFirst k) s) := by
  rw [statusByte_eq_nibble_append]
  cases k <;> rfl

theorem exec_decodeSystemCommon (n : BitVec 3) (s : State) :
    exec (decodeSystemCommon n) s = .next (recordStatus (scByte n) .waitingForStatus s) := by
  fin_cases n <;> rfl

theorem exec_decodeRealTime (n : BitVec 3) (s : State) :
    exec (decodeRealTime n) s = .next (dispatch Config.params (.rt n) 0#4 0#8 0#8 s) := by
  fin_cases n <;> rfl

/-! ## What the spec says of each class -/

theorem channelVoiceDoes_cvInstr (k : CvKind) :
    channelVoiceDoes (1#1 ++ cvCode k) k (oneDataByte k) (pstateCode (.awaitFirst k)) (cvInstr k) := by
  refine ⟨rfl, rfl, fun ch s => ?_⟩
  rw [← statusByte_eq_nibble_append]
  exact ⟨decode_statusByte k ch, exec_cvInstr k ch s⟩

theorem systemCommonDoes_scByte (n : BitVec 3) : systemCommonDoes (scByte n) (decodeSystemCommon n) :=
  ⟨decode_scByte n, exec_decodeSystemCommon n⟩

/-- The lines that carry the event are those of the port `dispatch` reports on. -/
theorem realTimeDoes_rtByte (n : BitVec 3) :
    realTimeDoes (rtByte n) n (kindCode (.rt n)) (decodeRealTime n) :=
  ⟨decode_rtByte n, fun s => ⟨exec_decodeRealTime n s, rfl, rfl, rfl, rfl, rfl, rfl, rfl, rfl⟩⟩

/-! ## The statements -/

/-- Settles O18: the seven rows are `channelVoiceDoes_cvInstr` at the seven kinds. -/
theorem channelVoiceStatusBytesRecord : Obligations.ChannelVoiceStatusBytesRecord :=
  ⟨channelVoiceDoes_cvInstr .noteOff, channelVoiceDoes_cvInstr .noteOn, channelVoiceDoes_cvInstr .polyAftertouch,
    channelVoiceDoes_cvInstr .controlChange, channelVoiceDoes_cvInstr .programChange,
    channelVoiceDoes_cvInstr .channelAftertouch, channelVoiceDoes_cvInstr .pitchBend⟩

/-- Settles O19: the eight rows are `systemCommonDoes_scByte` at the eight kinds. -/
theorem systemCommonBytesAreAbsorbed : Obligations.SystemCommonBytesAreAbsorbed :=
  ⟨systemCommonDoes_scByte 0#3, systemCommonDoes_scByte 1#3, systemCommonDoes_scByte 2#3, systemCommonDoes_scByte 3#3,
    systemCommonDoes_scByte 4#3, systemCommonDoes_scByte 5#3, systemCommonDoes_scByte 6#3, systemCommonDoes_scByte 7#3⟩

/-- Settles O20: the eight rows are `realTimeDoes_rtByte` at the eight kinds. -/
theorem realTimeBytesDispatchAtOnce : Obligations.RealTimeBytesDispatchAtOnce :=
  ⟨realTimeDoes_rtByte 0#3, realTimeDoes_rtByte 1#3, realTimeDoes_rtByte 2#3, realTimeDoes_rtByte 3#3,
    realTimeDoes_rtByte 4#3, realTimeDoes_rtByte 5#3, realTimeDoes_rtByte 6#3, realTimeDoes_rtByte 7#3⟩

end Sys2Proof.Machine

/-!
PROOFS. The data bytes of 41_midi_data_bytes.md. What a data byte does is said once for each of the three states in which
it belongs to a message, in the model's own operations (`storeFirst`, `complete`); a byte stream is followed one byte at a
time by `feed_cons_of_next` and its fellows.
-/

namespace Sys2Proof.Machine

open Sys2Proof.Claims

/-! ## The spec's terms and the model's -/

theorem mem_twoDataByteKinds_iff (k : CvKind) :
    k ∈ [CvKind.noteOff, .noteOn, .polyAftertouch, .controlChange, .pitchBend] ↔ oneDataByte k = false := by
  cases k <;> decide

theorem oneDataByte_iff (k : CvKind) : oneDataByte k = true ↔ k = .programChange ∨ k = .channelAftertouch := by
  cases k <;> decide

/-- A data byte is its seven-bit value with bit 7 zero (R64). -/
theorem dataOf_eq_zeroExtend (v : BitVec 7) : dataOf v = v.zeroExtend 8 := by
  revert v
  decide

/-- The channel of a recorded status byte is its low nibble (R67). -/
theorem channelOf_statusByte (k : CvKind) (ch : BitVec 4) : channelOf (statusByte k ch) = ch := by
  revert ch
  cases k <;> decide

/-- A channel-voice kind's slot of `HREG` is the one of its three-bit code (R66). -/
theorem registered_cv (k : CvKind) (s : State) : registered s (.cv k) = s.hreg.getLsbD (cvCode k).toNat := by
  cases k <;> rfl

theorem nextAfterComplete_params (k : CvKind) : nextAfterComplete Config.params k = afterMessage k := by
  unfold nextAfterComplete afterMessage
  cases Config.params.rsMode <;> rfl

theorem complete_params (k : CvKind) (d1 d2 : Byte) (s : State) :
    complete Config.params k d1 d2 s = completed k d1 d2 s := by
  unfold complete dispatch
  rw [nextAfterComplete_params, registered_cv]
  rfl

/-! ## What a data byte does -/

theorem decode_dataOf (v : BitVec 7) : decode (.rx (dataOf v)) = .ok (.data v) := by
  revert v
  decide

theorem exec_data (v : BitVec 7) (s : State) :
    exec (.data v) s = .next (dataByte Config.params (dataOf v) s) := rfl

section
variable {k : CvKind} {s : State} (p : Params) (b : Byte)

theorem dataByte_of_firstOfTwo (hk : oneDataByte k = false) (hs : s.pstate = .awaitFirst k) :
    dataByte p b s = storeFirst k b s := by
  simp [dataByte, hs, hk]

theorem dataByte_of_secondOfTwo (hk : oneDataByte k = false) (hs : s.pstate = .awaitSecond k) :
    dataByte p b s = complete p k s.data1 b s := by
  simp [dataByte, hs, hk]

theorem dataByte_of_onlyOne (hk : oneDataByte k = true) (hs : s.pstate = .awaitFirst k) :
    dataByte p b s = complete p k b 0#8 s := by
  simp [dataByte, hs, hk]

end

/-! ## Streams, one byte at a time -/

theorem runFrame_of_decode {f : Frame} {i : Instr} (h : decode f = .ok i) (s : State) : runFrame f s = exec i s := by
  simp only [runFrame, h]

theorem runFrame_statusByte (k : CvKind) (ch : BitVec 4) (s : State) :
    runFrame (.rx (statusByte k ch)) s = .next (recordStatus (statusByte k ch) (.awaitFirst k) s) := by
  rw [runFrame_of_decode (decode_statusByte k ch), exec_cvInstr]

theorem runFrame_dataOf (v : BitVec 7) (s : State) :
    runFrame (.rx (dataOf v)) s = .next (dataByte Config.params (dataOf v) s) := by
  rw [runFrame_of_decode (decode_dataOf v), exec_data]

section
variable {b : Byte} {s t : State} (bs : List Byte) (h : runFrame (.rx b) s = .next t)
include h

theorem feed_cons_of_next : feed (b :: bs) s = feed bs t := by
  simp only [feed, h, andThen_next]

theorem feedEvents_cons_of_next : feedEvents (b :: bs) s = t.evPort.report.toList ++ feedEvents bs t := by
  simp only [feedEvents, h]

theorem feedOutcomes_cons_of_next : feedOutcomes (b :: bs) s = t.outPort.report.toList ++ feedOutcomes bs t := by
  simp only [feedOutcomes, h]

end

/-! ## A whole two-data-byte message -/

/-- The state between the two data bytes of a message that began in `s` (R90, R132). -/
def halfway (k : CvKind) (ch : BitVec 4) (d1 : BitVec 7) (s : State) : State :=
  storeFirst k (dataOf d1) (recordStatus (statusByte k ch) (.awaitFirst k) s)

/-- The state after a two-data-byte message that began in `s` (R147). -/
def messageDone (k : CvKind) (ch : BitVec 4) (d1 d2 : BitVec 7) (s : State) : State :=
  complete Config.params k (dataOf d1) (dataOf d2) (halfway k ch d1 s)

section
variable {k : CvKind} (hk : oneDataByte k = false) (ch : BitVec 4) (d1 d2 : BitVec 7) (s : State)
include hk

theorem runFrame_firstOfTwo :
    runFrame (.rx (dataOf d1)) (recordStatus (statusByte k ch) (.awaitFirst k) s) = .next (halfway k ch d1 s) := by
  rw [runFrame_dataOf, dataByte_of_firstOfTwo _ _ hk (recordStatus_pstate ..), halfway]

theorem runFrame_secondOfTwo :
    runFrame (.rx (dataOf d2)) (halfway k ch d1 s) = .next (messageDone k ch d1 d2 s) := by
  have hs : (halfway k ch d1 s).pstate = .awaitSecond k := storeFirst_pstate ..
  rw [runFrame_dataOf, dataByte_of_secondOfTwo _ _ hk hs]
  rfl

theorem feed_twoDataByteMessage :
    feed [statusByte k ch, dataOf d1, dataOf d2] s = .next (messageDone k ch d1 d2 s) := by
  rw [feed_cons_of_next _ (runFrame_statusByte k ch s), feed_cons_of_next _ (runFrame_firstOfTwo hk ch d1 s),
    feed_cons_of_next _ (runFrame_secondOfTwo hk ch d1 d2 s), feed]

/-- Only the third byte presents an event, and its channel is the one the first byte recorded. -/
theorem feedEvents_twoDataByteMessage :
    feedEvents [statusByte k ch, dataOf d1, dataOf d2] s =
      [{ kind := .cv k, channel := ch, data1 := dataOf d1, data2 := dataOf d2
         registered := s.hreg.getLsbD (cvCode k).toNat }] := by
  rw [feedEvents_cons_of_next _ (runFrame_statusByte k ch s),
    feedEvents_cons_of_next _ (runFrame_firstOfTwo hk ch d1 s),
    feedEvents_cons_of_next _ (runFrame_secondOfTwo hk ch d1 d2 s)]
  simp [messageDone, halfway, feedEvents, channelOf_statusByte, registered_cv]

theorem feedOutcomes_twoDataByteMessage :
    feedOutcomes [statusByte k ch, dataOf d1, dataOf d2] s = [.outNone, .outNone, .outDispatched] := by
  rw [feedOutcomes_cons_of_next _ (runFrame_statusByte k ch s),
    feedOutcomes_cons_of_next _ (runFrame_firstOfTwo hk ch d1 s),
    feedOutcomes_cons_of_next _ (runFrame_secondOfTwo hk ch d1 d2 s)]
  simp [messageDone, halfway, feedOutcomes]

end

/-! ## The statements -/

/-- Settles O22: `storeFirst` is the state the statement writes out. -/
theorem firstDataByteIsStored : Obligations.FirstDataByteIsStored := by
  intro v k s hk hs
  rw [exec_data, dataByte_of_firstOfTwo _ _ ((mem_twoDataByteKinds_iff k).1 hk) hs, dataOf_eq_zeroExtend]
  rfl

/-- Settles O23: the step is `dataByte_of_secondOfTwo`; the message is followed byte by byte from any state to
`messageDone`. -/
theorem secondDataByteCompletes : Obligations.SecondDataByteCompletes := by
  intro k hk
  have htwo : oneDataByte k = false := (mem_twoDataByteKinds_iff k).1 hk
  simp only [← dataOf_eq_zeroExtend]
  refine ⟨fun v s hs => ?_, fun ch d1 d2 s => ⟨feedEvents_twoDataByteMessage htwo ch d1 d2 s,
    feedOutcomes_twoDataByteMessage htwo ch d1 d2 s, messageDone k ch d1 d2 s,
    feed_twoDataByteMessage htwo ch d1 d2 s, nextAfterComplete_params k, rfl, rfl, rfl, rfl⟩⟩
  rw [exec_data, dataByte_of_secondOfTwo _ _ htwo hs, complete_params]

/-- Settles O24: the one data byte finds its message complete, with zero in the place of the second. -/
theorem onlyDataByteCompletes : Obligations.OnlyDataByteCompletes := by
  intro v k s hk hs
  rw [exec_data, dataByte_of_onlyOne _ _ ((oneDataByte_iff k).2 hk) hs, complete_params, dataOf_eq_zeroExtend]

end Sys2Proof.Machine

/-!
PROOFS. The registration commands of 42_dispatch_registration.md. All four rows are `registerSlot` at some code, and what
that does turns on `kindInRange` of the code alone: one slot written in range (R165), only the error status out of it
(R166).
-/

namespace Sys2Proof.Machine

open Sys2Proof.Claims

/-! ## Which codes are in range -/

theorem kindInRange_iff (c : BitVec 5) : kindInRange c = true ↔ c.toNat ≤ 6 ∨ 8 ≤ c.toNat ∧ c.toNat ≤ 23 := by
  simp only [kindInRange, Bool.and_eq_true, decide_eq_true_eq, bne_iff_ne]
  omega

theorem kindInRange_seven : kindInRange 7#5 = false := by decide

theorem kindInRange_topCodes (low : BitVec 3) : kindInRange (0b11#2 ++ low) = false := by
  revert low
  decide

/-! ## The words -/

theorem decode_register {c : BitVec 5} (hc : kindInRange c = true) :
    decode (.reg (1#1 ++ c)) = .ok (.register c) := by
  revert c
  decide

theorem decode_unregister {c : BitVec 5} (hc : kindInRange c = true) :
    decode (.reg (0#1 ++ c)) = .ok (.unregister c) := by
  revert c
  decide

theorem decode_registerBadKind7 (en : BitVec 1) : decode (.reg (en ++ 7#5)) = .ok (.registerBadKind7 en) := by
  revert en
  decide

theorem decode_registerBadKind24To31 (en : BitVec 1) (low : BitVec 3) :
    decode (.reg (en ++ (0b11#2 ++ low))) = .ok (.registerBadKind24To31 en low) := by
  revert en low
  decide

/-! ## What they do -/

theorem exec_register (c : BitVec 5) (s : State) : exec (.register c) s = .next (registerSlot c true s) := rfl

theorem exec_unregister (c : BitVec 5) (s : State) : exec (.unregister c) s = .next (registerSlot c false s) := rfl

theorem exec_registerBadKind7 (en : BitVec 1) (s : State) :
    exec (.registerBadKind7 en) s = .next (registerSlot 7#5 (en == 1#1) s) := rfl

theorem exec_registerBadKind24To31 (en : BitVec 1) (low : BitVec 3) (s : State) :
    exec (.registerBadKind24To31 en low) s = .next (registerSlot (0b11#2 ++ low) (en == 1#1) s) := rfl

/-- The slot of a code in range is the one of the kind it names. -/
theorem registerSlot_of_inRange {c : BitVec 5} (hc : kindInRange c = true) (en : Bool) (s : State) :
    ∃ h : BitVec 24, registerSlot c en s = { s with hreg := h, regPort := .reports .outNone } ∧
      ∀ j, h.getLsbD j = if j = c.toNat then en else s.hreg.getLsbD j := by
  obtain ⟨k, hk, hs⟩ | ⟨hnone, -⟩ := registerSlot_cases c en s
  · refine ⟨hregWrite s.hreg k en, hs, fun j => ?_⟩
    rw [hregWrite_getLsbD, kindCode_of_kindOfCode hk]
  · have := kindOfCode_isSome c
    simp [hnone, hc] at this

theorem registerSlot_of_outOfRange {c : BitVec 5} (hc : kindInRange c = false) (en : Bool) (s : State) :
    registerSlot c en s = { s with regPort := .reports .eMidiBadEventHandler } := by
  obtain ⟨k, hk, -⟩ | ⟨-, hs⟩ := registerSlot_cases c en s
  · have := kindOfCode_isSome c
    simp [hk, hc] at this
  · exact hs

/-! ## The statements -/

/-- Settles O33: a slot-wise reading of `registerSlot_of_inRange`; the worked example is the whole message of
`feedEvents_twoDataByteMessage` begun in the state that REGISTER of kind 1 leaves. -/
theorem registrationWritesOneSlot : Obligations.RegistrationWritesOneSlot := by
  refine ⟨fun k s hk => ?_, rfl, ?_⟩
  · have hr : kindInRange k = true := (kindInRange_iff k).2 hk
    obtain ⟨h₁, hs₁, hbits₁⟩ := registerSlot_of_inRange hr true s
    obtain ⟨h₀, hs₀, hbits₀⟩ := registerSlot_of_inRange hr false s
    exact ⟨decode_register hr, decode_unregister hr, ⟨h₁, by rw [exec_register, hs₁], hbits₁⟩,
      ⟨h₀, by rw [exec_unregister, hs₀], hbits₀⟩⟩
  · have hslot : (registerSlot 1#5 true State.reset).hreg.getLsbD (cvCode .noteOn).toNat = true := rfl
    have hevents := feedEvents_twoDataByteMessage (k := .noteOn) rfl 0#4 0x40#7 0x7F#7
      (registerSlot 1#5 true State.reset)
    rw [hslot] at hevents
    exact ⟨registerSlot 1#5 true State.reset, exec_register 1#5 State.reset, hslot, hevents⟩

/-- Settles O34: both rows are `registerSlot` at a code out of range, where the enable bit plays no part. -/
theorem outOfRangeRegistrationFails : Obligations.OutOfRangeRegistrationFails := by
  refine ⟨rfl, fun en low s => ⟨decode_registerBadKind7 en, decode_registerBadKind24To31 en low, ?_, ?_⟩⟩
  · rw [exec_registerBadKind7, registerSlot_of_outOfRange kindInRange_seven]
  · rw [exec_registerBadKind24To31, registerSlot_of_outOfRange (kindInRange_topCodes low)]

end Sys2Proof.Machine

/-!
PROOFS. The timer commands of 43_timer_programmer.md that reach no pin, and the divisor's bytes. A command that names
channel 3 (R180) and one whose bytes the cache already holds (R183) are the two cases of `nothingToWrite`; what such a
command does is said once for the function level and once for a clock edge.
-/

namespace Sys2Proof.Machine

/-! ## The fields of a command word -/

/-- The decoder reads a command by its three fields (R72). -/
theorem decode_cmd (w : BitVec 18) :
    decode (.cmd w) = .ok (if cmdChannel w = 3#2 then .writeChannelInvalid (cmdLsb w) (cmdMsb w)
      else .writeChannel (cmdChannel w) (cmdLsb w) (cmdMsb w)) := rfl

section
variable (c : BitVec 2) (l m : Byte)

@[simp] theorem cmdChannel_append : cmdChannel (c ++ (l ++ m)) = c :=
  BitVec.extractLsb'_append_eq_left

@[simp] theorem cmdLsb_append : cmdLsb (c ++ (l ++ m)) = l := by
  rw [cmdLsb, BitVec.extractLsb'_append_eq_of_add_le (by decide), BitVec.extractLsb'_append_eq_left]

@[simp] theorem cmdMsb_append : cmdMsb (c ++ (l ++ m)) = m := by
  rw [cmdMsb, BitVec.extractLsb'_append_eq_of_add_le (by decide), BitVec.extractLsb'_append_eq_right]

theorem decode_cmd_append :
    decode (.cmd (c ++ (l ++ m))) = .ok (if c = 3#2 then .writeChannelInvalid l m else .writeChannel c l m) := by
  rw [decode_cmd, cmdChannel_append, cmdLsb_append, cmdMsb_append]

end

/-! ## The channel a command names -/

theorem timerChannel_three : timerChannel 3#2 = none := rfl

theorem timerChannel_of_toNat_eq {c : BitVec 2} {ch : TimerCh} (h : c.toNat = ch.val) : timerChannel c = some ch := by
  have hid : c = channelId ch := by
    apply BitVec.eq_of_toNat_eq
    rw [h]
    fin_cases ch <;> rfl
  rw [hid, timerChannel_channelId]

/-! ## Commands with nothing to write -/

theorem dirtyLsb_eq_false_iff (e : CacheEntry) (l : Byte) : dirtyLsb e l = false ↔ e.lsbv = true ∧ e.lsbc = l := by
  simp [dirtyLsb]

theorem dirtyMsb_eq_false_iff (e : CacheEntry) (m : Byte) : dirtyMsb e m = false ↔ e.msbv = true ∧ e.msbc = m := by
  simp [dirtyMsb]

/-- No byte of the command is dirty in the entry of the channel it names, if it names one (R180, R183). -/
def nothingToWrite (t : Cache) (c : BitVec 2) (l m : Byte) : Prop :=
  ∀ ch, timerChannel c = some ch → dirtyLsb (cacheGet t ch) l = false ∧ dirtyMsb (cacheGet t ch) m = false

theorem nothingToWrite_three (t : Cache) (l m : Byte) : nothingToWrite t 3#2 l m := by
  intro ch hch
  rw [timerChannel_three] at hch
  contradiction

theorem nothingToWrite_of_cacheGet {t : Cache} {c : BitVec 2} {ch : TimerCh} {l m : Byte} (hc : c.toNat = ch.val)
    (hentry : cacheGet t ch = ⟨l, m, true, true⟩) : nothingToWrite t c l m := by
  intro named hnamed
  obtain rfl : ch = named := Option.some.inj ((timerChannel_of_toNat_eq hc).symm.trans hnamed)
  rw [hentry, dirtyLsb_eq_false_iff, dirtyMsb_eq_false_iff]
  exact ⟨⟨rfl, rfl⟩, rfl, rfl⟩

theorem not_dirty_of_nothingToWrite {t : Cache} {c : BitVec 2} {ch : TimerCh} {l m : Byte}
    (h : nothingToWrite t c l m) (hch : timerChannel c = some ch) :
    ((pendingOf t ch l m).dl || (pendingOf t ch l m).dm) = false := by
  obtain ⟨hl, hm⟩ := h ch hch
  simp [pendingOf, hl, hm]

section
variable {s : State} {c : BitVec 2} {l m : Byte} (p : Params) (h : nothingToWrite s.cache c l m)
include h

theorem writeChannelOp_of_nothingToWrite : writeChannelOp p c l m s = { s with pinOps := [] } := by
  obtain hskip | ⟨ch, -, hch, hdirty, -⟩ := writeChannelOp_cases p c l m s
  · exact hskip
  · simp [not_dirty_of_nothingToWrite h hch] at hdirty

/-- With the bus idle the edge changes nothing, so `SEQ` stays `Idle` (R180, R183). -/
theorem timerEdge_of_nothingToWrite (hidle : s.seq = .idle) (hold : Bool) :
    timerEdge p hold (some (c ++ (l ++ m))) s = s := by
  obtain ⟨hbusy, -⟩ | ⟨-, hstay⟩ | ⟨w, ch, -, hw, hch, hdirty, -⟩ := timerEdge_cases p hold (some (c ++ (l ++ m))) s
  · exact absurd hidle hbusy
  · exact hstay
  · obtain rfl : c ++ (l ++ m) = w := Option.some.inj hw
    rw [cmdChannel_append] at hch
    rw [cmdLsb_append, cmdMsb_append] at hdirty
    simp [not_dirty_of_nothingToWrite h hch] at hdirty

end

theorem exec_writeChannel (c : BitVec 2) (l m : Byte) (s : State) :
    exec (.writeChannel c l m) s = .next (writeChannelOp Config.params c l m s) := rfl

theorem exec_writeChannelInvalid (l m : Byte) (s : State) :
    exec (.writeChannelInvalid l m) s = .next (writeChannelOp Config.params 3#2 l m s) := rfl

/-! ## The divisor -/

@[simp] theorem divisor_zero (p : Params) : divisor p 0 = none := if_pos rfl

theorem divisor_of_pos (p : Params) {f : Nat} (hf : 0 < f) : divisor p f = some (p.fMaster / f) :=
  if_neg (Nat.ne_of_gt hf)

theorem divisorLsb_toNat (d : Nat) : (divisorLsb d).toNat = d % 256 := by
  have hmask : d &&& 0xFF = d % 256 := Nat.and_two_pow_sub_one_eq_mod d 8
  rw [divisorLsb, hmask, BitVec.toNat_ofNat, Nat.mod_mod]

/-- The high byte is the low byte of what is left of the divisor without its low eight bits (R195). -/
theorem divisorMsb_eq_divisorLsb (d : Nat) : divisorMsb d = divisorLsb (d / 256) := by
  rw [divisorMsb, divisorLsb, Nat.shiftRight_eq_div_pow]

theorem divisorMsb_toNat (d : Nat) : (divisorMsb d).toNat = d / 256 % 256 := by
  rw [divisorMsb_eq_divisorLsb, divisorLsb_toNat]

theorem setFreq_zero (p : Params) (c : BitVec 2) : setFreq p c 0 = none := by
  rw [setFreq, divisor_zero, Option.map_none]

theorem setFreq_of_pos (p : Params) (c : BitVec 2) {f : Nat} (hf : 0 < f) :
    setFreq p c f = some (.cmd (c ++ (divisorLsb (p.fMaster / f) ++ divisorMsb (p.fMaster / f)))) := by
  rw [setFreq, divisor_of_pos p hf, Option.map_some]

/-! ## The statements -/

/-- Settles O36: the cache entry holds both requested bytes as valid, so there is nothing to write. -/
theorem nothingDirtyIsSkipped : Obligations.NothingDirtyIsSkipped := by
  intro c ch l m s hidle hc hentry
  have hnothing : nothingToWrite s.cache c l m := nothingToWrite_of_cacheGet hc hentry
  exact ⟨by rw [exec_writeChannel, writeChannelOp_of_nothingToWrite _ hnothing],
    timerEdge_of_nothingToWrite _ hnothing hidle⟩

/-- Settles O37: channel id 3 names no channel, so in every state there is nothing to write. -/
theorem channelThreeIsIgnored : Obligations.ChannelThreeIsIgnored := by
  intro l m s
  have hnothing : nothingToWrite s.cache 3#2 l m := nothingToWrite_three s.cache l m
  exact ⟨by rw [decode_cmd_append, if_pos rfl],
    by rw [exec_writeChannelInvalid, writeChannelOp_of_nothingToWrite _ hnothing],
    timerEdge_of_nothingToWrite _ hnothing⟩

/-- Settles O48: the helper and its bytes are `divisor_of_pos`, `divisorLsb_toNat` and `divisorMsb_toNat`; SET_FREQ is the
command of `setFreq_of_pos`, which `decode_cmd_append` reads. -/
theorem divisorAndItsBytes : Obligations.DivisorAndItsBytes := by
  intro p
  refine ⟨fun f hf => divisor_of_pos p hf, divisor_zero p, fun d => ⟨divisorLsb_toNat d, divisorMsb_toNat d⟩,
    fun hmaster => ⟨?_, rfl, rfl⟩, setFreq_zero p,
    fun c f hf => ⟨_, setFreq_of_pos p c hf, decode_cmd_append c _ _⟩⟩
  rw [divisor_of_pos p (by decide), hmaster]

end Sys2Proof.Machine

/-!
PROOFS. The event sink of 44_voice_glue.md: whether it acts is decided by the registration mark (R162), what it does by
the kind and the velocity (R216, R217). Neither reads the channel.
-/

namespace Sys2Proof.Machine

section
variable (p : Params) {e : Event} (s : State)

theorem sinkEvent_of_registered (hreg : e.registered = true) : sinkEvent p (some e) s = handleEvent p e s := if_pos hreg

theorem sinkEvent_of_not_registered (hreg : e.registered = false) : sinkEvent p (some e) s = .next s :=
  if_neg (Bool.eq_false_iff.mp hreg)

/-- Whatever its key, velocity and channel. -/
theorem handleEvent_of_noteOff (hkind : e.kind = .cv .noteOff) : handleEvent p e s = .next (noteOff p s) := by
  rw [handleEvent, hkind]

/-- Whatever its key and channel. -/
theorem handleEvent_of_noteOn_velocityZero (hkind : e.kind = .cv .noteOn) (hvel : e.data2 = 0#8) :
    handleEvent p e s = .next (noteOff p s) := by
  rw [handleEvent, hkind]
  exact if_pos hvel

/-- Events with the same registration mark and the same handling are the same to the sink. -/
theorem sinkEvent_congr {e' : Event} (hreg : e.registered = e'.registered)
    (hhandle : handleEvent p e s = handleEvent p e' s) : sinkEvent p (some e) s = sinkEvent p (some e') s := by
  cases hmark : e'.registered with
  | false => rw [sinkEvent_of_not_registered p s (hreg.trans hmark), sinkEvent_of_not_registered p s hmark]
  | true => rw [sinkEvent_of_registered p s (hreg.trans hmark), sinkEvent_of_registered p s hmark, hhandle]

end

/-- Settles O53: the handler answers both events with `noteOff`, and the sink acts on registered events only. -/
theorem velocityZeroIsANoteOff : Obligations.VelocityZeroIsANoteOff := by
  intro p ch ch' key key' vel r s
  refine ⟨sinkEvent_congr p s rfl ?_, ?_, fun e hreg => sinkEvent_of_not_registered p s hreg⟩
  · calc handleEvent p { kind := .cv .noteOn, channel := ch, data1 := key, data2 := 0x00#8, registered := r } s
      _ = .next (noteOff p s) := handleEvent_of_noteOn_velocityZero p s rfl rfl
      _ = handleEvent p { kind := .cv .noteOff, channel := ch', data1 := key', data2 := vel, registered := r } s :=
        (handleEvent_of_noteOff p s rfl).symm
  · rw [sinkEvent_of_registered p s rfl, handleEvent_of_noteOff p s rfl]

end Sys2Proof.Machine

/-!
PROOFS. The encoding of 30_encoding.md. The tables of the spec are written once as a relation between words and
instructions (`CodeRow`): each of its pairs is read by the decoder and written by the encoder, every well-formed instruction
has a row, and every word that decodes has one. Both round trips, and the reading of a byte as `receive`, follow from that.
-/

namespace Sys2Proof.Machine

open Sys2Proof.Claims

/-! ## Words by their class -/

/-- Every byte has one of the four forms R60 to R64 sort it into. -/
theorem byte_cases (b : Byte) :
    (∃ n, b = rtByte n) ∨ (∃ n, b = scByte n) ∨ (∃ k ch, b = statusByte k ch) ∨ ∃ v, b = dataOf v := by
  have forms : ∀ b : Byte, b = rtByte (b.extractLsb' 0 3) ∨ b = scByte (b.extractLsb' 0 3) ∨
      (∃ k ∈ [CvKind.noteOff, .noteOn, .polyAftertouch, .controlChange, .programChange, .channelAftertouch, .pitchBend],
        b = statusByte k (b.extractLsb' 0 4)) ∨ b = dataOf (b.extractLsb' 0 7) := by decide
  obtain h | h | ⟨k, -, h⟩ | h := forms b
  · exact .inl ⟨_, h⟩
  · exact .inr (.inl ⟨_, h⟩)
  · exact .inr (.inr (.inl ⟨k, _, h⟩))
  · exact .inr (.inr (.inr ⟨_, h⟩))

/-- A registration word is an enable bit on a kind in range, on code 7, or on one of the codes 24 to 31 (R71). -/
theorem registrationWord_cases (w : BitVec 6) :
    (∃ k, kindInRange k = true ∧ (w = 1#1 ++ k ∨ w = 0#1 ++ k)) ∨ (∃ en : BitVec 1, w = en ++ 7#5) ∨
    ∃ (en : BitVec 1) (low : BitVec 3), w = en ++ (0b11#2 ++ low) := by
  have forms : ∀ w : BitVec 6,
      (kindInRange (w.extractLsb' 0 5) = true ∧ (w = 1#1 ++ w.extractLsb' 0 5 ∨ w = 0#1 ++ w.extractLsb' 0 5)) ∨
      w = w.extractLsb' 5 1 ++ 7#5 ∨ w = w.extractLsb' 5 1 ++ (0b11#2 ++ w.extractLsb' 0 3) := by decide
  obtain h | h | h := forms w
  · exact .inl ⟨_, h⟩
  · exact .inr (.inl ⟨_, h⟩)
  · exact .inr (.inr ⟨_, _, h⟩)

/-- A timer command is its three fields (R72). -/
theorem commandWord_eq (w : BitVec 18) : cmdChannel w ++ (cmdLsb w ++ cmdMsb w) = w := by
  simp only [cmdChannel, cmdLsb, cmdMsb]
  rw [BitVec.extractLsb'_append_extractLsb'_eq_extractLsb' (by decide),
    BitVec.extractLsb'_append_extractLsb'_eq_extractLsb' (by decide), BitVec.extractLsb'_eq_self]

/-- A control word is its four fields (R74). -/
theorem controlByte_fields (b : Byte) :
    controlByte (b.extractLsb' 6 2) (b.extractLsb' 4 2) (b.extractLsb' 1 3) (b.extractLsb' 0 1) = b := by
  revert b
  decide

theorem fields_controlByte (c am : BitVec 2) (mode : BitVec 3) (bcd : BitVec 1) :
    (controlByte c am mode bcd).extractLsb' 6 2 = c ∧ (controlByte c am mode bcd).extractLsb' 4 2 = am ∧
    (controlByte c am mode bcd).extractLsb' 1 3 = mode ∧ (controlByte c am mode bcd).extractLsb' 0 1 = bcd := by
  revert c am mode bcd
  decide

theorem decodeBus_eq_ok_iff (p : Params) (b : Byte) (i : Instr) :
    decodeBus p b = .ok i ↔
      (b.extractLsb' 6 2 ≠ 3#2 ∧ b.extractLsb' 4 2 ≠ 0#2 ∧ b.extractLsb' 1 3 = p.modeBits ∧
        b.extractLsb' 0 1 = p.bcdBit) ∧
      i = .controlWord (b.extractLsb' 6 2) (b.extractLsb' 4 2) (b.extractLsb' 1 3) (b.extractLsb' 0 1) := by
  simp only [decodeBus]
  split_ifs with hc ham hfixed <;> simp_all [eq_comm]

/-! ## The encoder's words -/

theorem encode_cvInstr (k : CvKind) (ch : BitVec 4) : encode (cvInstr k ch) = .rx (statusByte k ch) := by
  rw [statusByte_eq_nibble_append]
  cases k <;> rfl

theorem encode_decodeSystemCommon (n : BitVec 3) : encode (decodeSystemCommon n) = .rx (scByte n) := by
  fin_cases n <;> rfl

theorem encode_decodeRealTime (n : BitVec 3) : encode (decodeRealTime n) = .rx (rtByte n) := by
  fin_cases n <;> rfl

theorem wfWith_cvInstr (p : Params) (k : CvKind) (ch : BitVec 4) : (cvInstr k ch).wfWith p = true := by
  cases k <;> rfl

theorem wfWith_decodeSystemCommon (p : Params) (n : BitVec 3) : (decodeSystemCommon n).wfWith p = true := by
  fin_cases n <;> rfl

theorem wfWith_decodeRealTime (p : Params) (n : BitVec 3) : (decodeRealTime n).wfWith p = true := by
  fin_cases n <;> rfl

/-! ## The code table -/

/-- The words of 30_encoding.md, each with the instruction it stands for. -/
inductive CodeRow (p : Params) : Frame → Instr → Prop where
  | channelVoice (k : CvKind) (ch : BitVec 4) : CodeRow p (.rx (statusByte k ch)) (cvInstr k ch)
  | systemCommon (n : BitVec 3) : CodeRow p (.rx (scByte n)) (decodeSystemCommon n)
  | realTime (n : BitVec 3) : CodeRow p (.rx (rtByte n)) (decodeRealTime n)
  | data (v : BitVec 7) : CodeRow p (.rx (dataOf v)) (.data v)
  | register (k : BitVec 5) (h : kindInRange k = true) : CodeRow p (.reg (1#1 ++ k)) (.register k)
  | unregister (k : BitVec 5) (h : kindInRange k = true) : CodeRow p (.reg (0#1 ++ k)) (.unregister k)
  | badKind7 (en : BitVec 1) : CodeRow p (.reg (en ++ 7#5)) (.registerBadKind7 en)
  | badKind24To31 (en : BitVec 1) (low : BitVec 3) :
      CodeRow p (.reg (en ++ (0b11#2 ++ low))) (.registerBadKind24To31 en low)
  | command (c : BitVec 2) (l m : Byte) (h : c ≠ 3#2) : CodeRow p (.cmd (c ++ (l ++ m))) (.writeChannel c l m)
  | commandInvalid (l m : Byte) : CodeRow p (.cmd (3#2 ++ (l ++ m))) (.writeChannelInvalid l m)
  | control (c am : BitVec 2) (hc : c ≠ 3#2) (ham : am ≠ 0#2) :
      CodeRow p (.bus (controlByte c am p.modeBits p.bcdBit)) (.controlWord c am p.modeBits p.bcdBit)
  | reset : CodeRow p .rst .reset

section
variable {p : Params} {f : Frame} {i : Instr}

theorem CodeRow.decode_eq (h : CodeRow p f i) : decodeWith p f = .ok i := by
  cases h with
  | channelVoice k ch => exact decode_statusByte k ch
  | systemCommon n => exact decode_scByte n
  | realTime n => exact decode_rtByte n
  | data v => exact decode_dataOf v
  | register k h => exact decode_register h
  | unregister k h => exact decode_unregister h
  | badKind7 en => exact decode_registerBadKind7 en
  | badKind24To31 en low => exact decode_registerBadKind24To31 en low
  | command c l m h => exact (decode_cmd_append c l m).trans (by rw [if_neg h])
  | commandInvalid l m => exact decode_cmd_append 3#2 l m
  | control c am hc ham =>
    obtain ⟨fc, fam, fmode, fbcd⟩ := fields_controlByte c am p.modeBits p.bcdBit
    rw [decodeWith, decodeBus_eq_ok_iff, fc, fam, fmode, fbcd]
    exact ⟨⟨hc, ham, rfl, rfl⟩, rfl⟩
  | reset => rfl

theorem CodeRow.encode_eq (h : CodeRow p f i) : encode i = f := by
  cases h with
  | channelVoice k ch => exact encode_cvInstr k ch
  | systemCommon n => exact encode_decodeSystemCommon n
  | realTime n => exact encode_decodeRealTime n
  | data | register | unregister | badKind7 | badKind24To31 | command | commandInvalid | control | reset => rfl

theorem CodeRow.wf (h : CodeRow p f i) : i.wfWith p = true := by
  cases h with
  | channelVoice k ch => exact wfWith_cvInstr p k ch
  | systemCommon n => exact wfWith_decodeSystemCommon p n
  | realTime n => exact wfWith_decodeRealTime p n
  | register k h | unregister k h => exact h
  | command c l m h => simpa [Instr.wfWith] using h
  | control c am hc ham => simp [Instr.wfWith, hc, ham]
  | data | badKind7 | badKind24To31 | commandInvalid | reset => rfl

/-- Every well-formed instruction has a row, with the word the encoder gives it. -/
theorem codeRow_of_wf (h : i.wfWith p = true) : CodeRow p (encode i) i := by
  have cv (k : CvKind) (ch : BitVec 4) : CodeRow p (encode (cvInstr k ch)) (cvInstr k ch) :=
    encode_cvInstr k ch ▸ .channelVoice k ch
  cases i with
  | noteOff ch => exact cv .noteOff ch
  | noteOn ch => exact cv .noteOn ch
  | polyAftertouch ch => exact cv .polyAftertouch ch
  | controlChange ch => exact cv .controlChange ch
  | programChange ch => exact cv .programChange ch
  | channelAftertouch ch => exact cv .channelAftertouch ch
  | pitchBend ch => exact cv .pitchBend ch
  | scF0 => exact .systemCommon 0#3
  | scF1 => exact .systemCommon 1#3
  | scF2 => exact .systemCommon 2#3
  | scF3 => exact .systemCommon 3#3
  | scF4 => exact .systemCommon 4#3
  | scF5 => exact .systemCommon 5#3
  | scF6 => exact .systemCommon 6#3
  | scF7 => exact .systemCommon 7#3
  | rtF8 => exact .realTime 0#3
  | rtF9 => exact .realTime 1#3
  | rtFA => exact .realTime 2#3
  | rtFB => exact .realTime 3#3
  | rtFC => exact .realTime 4#3
  | rtFD => exact .realTime 5#3
  | rtFE => exact .realTime 6#3
  | rtFF => exact .realTime 7#3
  | data v => exact .data v
  | register k => exact .register k h
  | unregister k => exact .unregister k h
  | registerBadKind7 en => exact .badKind7 en
  | registerBadKind24To31 en low => exact .badKind24To31 en low
  | writeChannel c l m => exact .command c l m (by simpa [Instr.wfWith] using h)
  | writeChannelInvalid l m => exact .commandInvalid l m
  | controlWord c am mode bcd =>
    simp only [Instr.wfWith, Bool.and_eq_true, bne_iff_ne, beq_iff_eq] at h
    obtain ⟨⟨⟨hc, ham⟩, rfl⟩, rfl⟩ := h
    exact .control c am hc ham
  | reset => exact .reset

/-- Every received byte has a row. -/
theorem codeRow_rx (p : Params) (b : Byte) : ∃ j, CodeRow p (.rx b) j := by
  obtain ⟨n, rfl⟩ | ⟨n, rfl⟩ | ⟨k, ch, rfl⟩ | ⟨v, rfl⟩ := byte_cases b
  · exact ⟨_, .realTime n⟩
  · exact ⟨_, .systemCommon n⟩
  · exact ⟨_, .channelVoice k ch⟩
  · exact ⟨_, .data v⟩

/-- Every registration word has a row. -/
theorem codeRow_reg (p : Params) (w : BitVec 6) : ∃ j, CodeRow p (.reg w) j := by
  obtain ⟨k, hk, rfl | rfl⟩ | ⟨en, rfl⟩ | ⟨en, low, rfl⟩ := registrationWord_cases w
  · exact ⟨_, .register k hk⟩
  · exact ⟨_, .unregister k hk⟩
  · exact ⟨_, .badKind7 en⟩
  · exact ⟨_, .badKind24To31 en low⟩

/-- Every timer command has a row. -/
theorem codeRow_cmd (p : Params) (w : BitVec 18) : ∃ j, CodeRow p (.cmd w) j := by
  rw [← commandWord_eq w]
  by_cases hc : cmdChannel w = 3#2
  · rw [hc]
    exact ⟨_, .commandInvalid _ _⟩
  · exact ⟨_, .command _ _ _ hc⟩

/-- A word that decodes has a row; of the words of the other four ports all decode. -/
theorem codeRow_of_decode (h : decodeWith p f = .ok i) : CodeRow p f i := by
  have unique {j : Instr} (hj : CodeRow p f j) : CodeRow p f i :=
    Except.ok.inj (hj.decode_eq.symm.trans h) ▸ hj
  cases f with
  | rx b => exact (codeRow_rx p b).elim fun _ hj => unique hj
  | reg w => exact (codeRow_reg p w).elim fun _ hj => unique hj
  | cmd w => exact (codeRow_cmd p w).elim fun _ hj => unique hj
  | rst => exact unique .reset
  | bus b =>
    obtain ⟨⟨hc, ham, hmode, hbcd⟩, -⟩ := (decodeBus_eq_ok_iff p b i).1 h
    have hb := controlByte_fields b
    rw [hmode, hbcd] at hb
    rw [← hb] at unique ⊢
    exact unique (.control _ _ hc ham)

end

/-! ## Bytes and `receive` -/

theorem runFrame_scByte (n : BitVec 3) (s : State) :
    runFrame (.rx (scByte n)) s = .next (recordStatus (scByte n) .waitingForStatus s) := by
  rw [runFrame_of_decode (decode_scByte n), exec_decodeSystemCommon]

theorem runFrame_rtByte (n : BitVec 3) (s : State) :
    runFrame (.rx (rtByte n)) s = .next (dispatch Config.params (.rt n) 0#4 0#8 0#8 s) := by
  rw [runFrame_of_decode (decode_rtByte n), exec_decodeRealTime]

section
variable (p : Params) (s : State)

theorem receive_rtByte (n : BitVec 3) : receive p (rtByte n) s = dispatch p (.rt n) 0#4 0#8 0#8 s := by
  have bits : ∀ n, (rtByte n).extractLsb' 3 5 = 0b11111#5 ∧ (rtByte n).extractLsb' 0 3 = n := by decide
  obtain ⟨htop, hlow⟩ := bits n
  rw [receive, if_pos htop, realTime, hlow]

theorem receive_scByte (n : BitVec 3) : receive p (scByte n) s = recordStatus (scByte n) .waitingForStatus s := by
  have bits : ∀ n, (scByte n).extractLsb' 3 5 ≠ 0b11111#5 ∧ (scByte n).extractLsb' 4 4 = 0b1111#4 := by decide
  obtain ⟨hrt, hsc⟩ := bits n
  rw [receive, if_neg hrt, if_pos hsc, systemCommon]

theorem receive_statusByte (k : CvKind) (ch : BitVec 4) :
    receive p (statusByte k ch) s = recordStatus (statusByte k ch) (.awaitFirst k) s := by
  have bits : ∀ ch, (statusByte k ch).extractLsb' 3 5 ≠ 0b11111#5 ∧ (statusByte k ch).extractLsb' 4 4 ≠ 0b1111#4 ∧
      (statusByte k ch).getLsbD 7 = true ∧ (statusByte k ch).extractLsb' 4 3 = cvCode k := by
    cases k <;> decide
  obtain ⟨hrt, hsc, htop, hkind⟩ := bits ch
  rw [receive, if_neg hrt, if_neg hsc, if_pos htop, channelVoiceStatus, hkind, cvOfCode_cvCode]

theorem receive_dataOf (v : BitVec 7) : receive p (dataOf v) s = dataByte p (dataOf v) s := by
  have bits : ∀ v, (dataOf v).extractLsb' 3 5 ≠ 0b11111#5 ∧ (dataOf v).extractLsb' 4 4 ≠ 0b1111#4 ∧
      ¬ (dataOf v).getLsbD 7 = true := by decide
  obtain ⟨hrt, hsc, htop⟩ := bits v
  rw [receive, if_neg hrt, if_neg hsc, if_neg htop]

end

/-! ## The classes of instructions -/

/-- The instruction is in the class numbered `c`, of the four of R61 to R64, and in no other. -/
def inClass (c : Nat) (i : Instr) : Prop :=
  (i ∈ realTimeInstrs ↔ c = 1) ∧ (i ∈ systemCommonInstrs ↔ c = 2) ∧
  ((∃ ch, i ∈ channelVoiceInstrs ch) ↔ c = 3) ∧ ((∃ v, i = .data v) ↔ c = 4)

theorem inClass_of_mem_realTime {i : Instr} (h : i ∈ realTimeInstrs) : inClass 1 i := by
  simp only [realTimeInstrs, List.mem_cons, List.not_mem_nil, or_false] at h
  obtain rfl | rfl | rfl | rfl | rfl | rfl | rfl | rfl := h <;>
    simp [inClass, realTimeInstrs, systemCommonInstrs, channelVoiceInstrs]

theorem inClass_of_mem_systemCommon {i : Instr} (h : i ∈ systemCommonInstrs) : inClass 2 i := by
  simp only [systemCommonInstrs, List.mem_cons, List.not_mem_nil, or_false] at h
  obtain rfl | rfl | rfl | rfl | rfl | rfl | rfl | rfl := h <;>
    simp [inClass, realTimeInstrs, systemCommonInstrs, channelVoiceInstrs]

theorem decodeRealTime_mem (n : BitVec 3) : decodeRealTime n ∈ realTimeInstrs := by
  revert n
  decide

theorem decodeSystemCommon_mem (n : BitVec 3) : decodeSystemCommon n ∈ systemCommonInstrs := by
  revert n
  decide

theorem inClass_cvInstr (k : CvKind) (ch : BitVec 4) : inClass 3 (cvInstr k ch) := by
  cases k <;> simp [inClass, cvInstr, realTimeInstrs, systemCommonInstrs, channelVoiceInstrs]

theorem inClass_data (v : BitVec 7) : inClass 4 (.data v) := by
  simp [inClass, realTimeInstrs, systemCommonInstrs, channelVoiceInstrs]

theorem rtByte_range (n : BitVec 3) : 0xF8 ≤ (rtByte n).toNat := by
  revert n
  decide

theorem scByte_range (n : BitVec 3) : 0xF0 ≤ (scByte n).toNat ∧ (scByte n).toNat ≤ 0xF7 := by
  revert n
  decide

theorem statusByte_range (k : CvKind) (ch : BitVec 4) :
    0x80 ≤ (statusByte k ch).toNat ∧ (statusByte k ch).toNat ≤ 0xEF := by
  revert ch
  cases k <;> decide

theorem dataOf_range (v : BitVec 7) : (dataOf v).toNat ≤ 0x7F := by
  revert v
  decide

/-- The class of a byte is read off its value (R60 to R64). -/
theorem inClass_ranges {c : Nat} {i : Instr} {b : Byte} (hi : inClass c i)
    (hrt : 0xF8 ≤ b.toNat ↔ c = 1) (hsc : 0xF0 ≤ b.toNat ∧ b.toNat ≤ 0xF7 ↔ c = 2)
    (hcv : 0x80 ≤ b.toNat ∧ b.toNat ≤ 0xEF ↔ c = 3) (hdata : b.toNat ≤ 0x7F ↔ c = 4) :
    (i ∈ realTimeInstrs ↔ 0xF8 ≤ b.toNat) ∧ (i ∈ systemCommonInstrs ↔ 0xF0 ≤ b.toNat ∧ b.toNat ≤ 0xF7) ∧
    ((∃ ch, i ∈ channelVoiceInstrs ch) ↔ 0x80 ≤ b.toNat ∧ b.toNat ≤ 0xEF) ∧
    ((∃ v, i = .data v) ↔ b.toNat ≤ 0x7F) := by
  obtain ⟨irt, isc, icv, idata⟩ := hi
  exact ⟨irt.trans hrt.symm, isc.trans hsc.symm, icv.trans hcv.symm, idata.trans hdata.symm⟩

/-! ## The statements -/

/-- Settles O1: a well-formed instruction has a row of the code table with the encoder's word, and the decoder reads it. -/
theorem decodeOfEncode : Obligations.DecodeOfEncode :=
  ⟨fun _ _ h => (codeRow_of_wf h).decode_eq, fun _ h => (codeRow_of_wf h).decode_eq⟩

/-- Settles O2: a word that decodes has a row of the code table; the encoder writes it and its instruction is well
formed. -/
theorem encodeOfDecode : Obligations.EncodeOfDecode :=
  ⟨fun _ _ _ h => ⟨(codeRow_of_decode h).encode_eq, (codeRow_of_decode h).wf⟩,
    fun _ _ h => ⟨(codeRow_of_decode h).encode_eq, (codeRow_of_decode h).wf⟩⟩

/-- Settles O3: each word is a row of the code table, written out. -/
theorem writtenOutWordsDecode : Obligations.WrittenOutWordsDecode :=
  ⟨decode_statusByte .noteOn 15#4, decode_scByte 7#3, decode_rtByte 2#3, decode_dataOf 127#7,
    decode_register (c := 16#5) (by decide), decode_registerBadKind24To31 0#1 0#3,
    decode_cmd_append 0#2 0x34#8 0x12#8, decode_cmd_append 3#2 0#8 0#8,
    CodeRow.decode_eq (.control 1#2 2#2 (by decide) (by decide))⟩

/-- Settles O4: a byte has one of four forms; the class of its instruction and the range of its value are both those of
the form. -/
theorem everyByteHasOneClass : Obligations.EveryByteHasOneClass := by
  intro b
  obtain ⟨n, rfl⟩ | ⟨n, rfl⟩ | ⟨k, ch, rfl⟩ | ⟨v, rfl⟩ := byte_cases b
  · have := rtByte_range n
    exact ⟨_, decode_rtByte n, inClass_ranges (inClass_of_mem_realTime (decodeRealTime_mem n))
      (by omega) (by omega) (by omega) (by omega)⟩
  · have := scByte_range n
    exact ⟨_, decode_scByte n, inClass_ranges (inClass_of_mem_systemCommon (decodeSystemCommon_mem n))
      (by omega) (by omega) (by omega) (by omega)⟩
  · have := statusByte_range k ch
    exact ⟨_, decode_statusByte k ch, inClass_ranges (inClass_cvInstr k ch) (by omega) (by omega) (by omega) (by omega)⟩
  · have := dataOf_range v
    exact ⟨_, decode_dataOf v, inClass_ranges (inClass_data v) (by omega) (by omega) (by omega) (by omega)⟩

/-- Settles O5: a byte decodes exactly when its four fields are in range, and nine bytes have such fields. -/
theorem controlWordsAreTheNine : Obligations.ControlWordsAreTheNine := by
  have nine : ∀ b : Byte,
      (b.extractLsb' 6 2 ≠ 3#2 ∧ b.extractLsb' 4 2 ≠ 0#2 ∧ b.extractLsb' 1 3 = 0b011#3 ∧ b.extractLsb' 0 1 = 0#1) ↔
        b ∈ nineControlWords := by decide
  intro b
  rw [← nine b]
  exact ⟨fun ⟨i, h⟩ => ((decodeBus_eq_ok_iff Config.params b i).1 h).1,
    fun h => ⟨_, (decodeBus_eq_ok_iff Config.params b _).2 ⟨h, rfl⟩⟩⟩

/-- Settles O6: for each of the four forms of a byte the instruction and the rule `receive` selects are the same
operation. -/
theorem runningAByteIsReceive : Obligations.RunningAByteIsReceive := by
  intro b s
  obtain ⟨n, rfl⟩ | ⟨n, rfl⟩ | ⟨k, ch, rfl⟩ | ⟨v, rfl⟩ := byte_cases b
  · rw [runFrame_rtByte, receive_rtByte]
  · rw [runFrame_scByte, receive_scByte]
  · rw [runFrame_statusByte, receive_statusByte]
  · rw [runFrame_dataOf, receive_dataOf]

end Sys2Proof.Machine

/-!
PROOFS. Steps. A step is one of six kinds of stimulus taken (`stepOf_idle` to `stepOf_tick`, for any parameters), and a
clock edge without reset is what the ports offer run in order, then the timer programmer's part. A word that runs is a word
that decodes, and every word of a hardware port does.
-/

namespace Sys2Proof.Machine

open Sys2Proof.Claims

/-! ## `busy` and `cmd_ready` -/

theorem busy_eq_true_iff (s : State) : s.busy = true ↔ s.seq ≠ .idle := by
  unfold State.busy
  cases s.seq <;> simp

theorem busy_eq_false_iff (s : State) : s.busy = false ↔ s.seq = .idle := by
  rw [← Bool.not_eq_true, busy_eq_true_iff, not_not]

/-! ## Running a word -/

/-- Every instruction has a next state in every state (R246). -/
theorem exec_total (i : Instr) (s : State) : ∃ t, exec i s = .next t := by
  obtain ⟨t, ht, -⟩ := exec_effect i s
  exact ⟨t, ht⟩

/-- A word runs to a next state exactly when it decodes, and then as its instruction. A byte that is no control word is
refused (R78); the error of the kind selection (R98) is reached by no byte. -/
theorem runFrame_eq_next_iff {f : Frame} {s t : State} :
    runFrame f s = .next t ↔ ∃ i, decode f = .ok i ∧ exec i s = .next t := by
  have of_row : (∃ j, CodeRow Config.params f j) →
      (runFrame f s = .next t ↔ ∃ i, decode f = .ok i ∧ exec i s = .next t) := by
    rintro ⟨j, hj⟩
    have hd : decode f = .ok j := hj.decode_eq
    simp [runFrame, hd]
  cases f with
  | rx b => exact of_row (codeRow_rx _ b)
  | reg w => exact of_row (codeRow_reg _ w)
  | cmd w => exact of_row (codeRow_cmd _ w)
  | rst => exact of_row ⟨_, .reset⟩
  | bus b =>
    simp only [runFrame, decode, decodeWith, decodeBus]
    split_ifs <;> simp [undecoded]

/-- A word on a hardware port always runs. -/
theorem runFrame_total {f : Frame} (hf : ∀ b, f ≠ .bus b) (s : State) : ∃ t, runFrame f s = .next t := by
  have of_row : (∃ j, CodeRow Config.params f j) → ∃ t, runFrame f s = .next t := by
    rintro ⟨j, hj⟩
    obtain ⟨t, ht⟩ := exec_total j s
    exact ⟨t, runFrame_eq_next_iff.2 ⟨j, hj.decode_eq, ht⟩⟩
  cases f with
  | rx b => exact of_row (codeRow_rx _ b)
  | reg w => exact of_row (codeRow_reg _ w)
  | cmd w => exact of_row (codeRow_cmd _ w)
  | rst => exact of_row ⟨_, .reset⟩
  | bus b => exact absurd rfl (hf b)

/-- No word faults; a byte that is no control word is refused instead. -/
theorem runFrame_ne_fault (f : Frame) (s : State) (r : Fault) : runFrame f s ≠ .fault r := by
  by_cases hf : ∀ b, f ≠ .bus b
  · obtain ⟨t, ht⟩ := runFrame_total hf s
    simp [ht]
  · obtain ⟨b, rfl⟩ := not_forall_not.1 hf
    cases hd : decode (.bus b) with
    | ok i =>
      obtain ⟨t, ht⟩ := exec_total i s
      simp [runFrame, hd, ht]
    | error e =>
      simp only [decode, decodeWith, decodeBus] at hd
      split_ifs at hd <;> cases hd <;> simp [runFrame, decode, decodeWith, decodeBus, undecoded, *]

theorem runFrame_rst (s : State) : runFrame .rst s = .next (resetOp Config.params s) := rfl

/-! ## What the ports offer on an edge -/

theorem runOffered_reg_total (reg : Option (BitVec 6)) (s : State) :
    ∃ t, runOffered runFrame (reg.map .reg) s = .next t := by
  cases reg with
  | none => exact ⟨s, rfl⟩
  | some w => exact runFrame_total (f := .reg w) (fun _ h => nomatch h) s

theorem runOffered_rx_total (rx : Option Byte) (s : State) : ∃ t, runOffered runFrame (rx.map .rx) s = .next t := by
  cases rx with
  | none => exact ⟨s, rfl⟩
  | some b => exact runFrame_total (f := .rx b) (fun _ h => nomatch h) s

/-! ## The timer programmer at an edge -/

section
variable (p : Params) (hold : Bool) (cmd : Option (BitVec 18)) {s : State}

/-- A busy sequencer goes on and accepts nothing (R189). -/
theorem timerEdge_of_busy (h : s.seq ≠ .idle) : timerEdge p hold cmd s = heldEdge p hold s := by
  obtain ⟨-, hs⟩ | ⟨hidle, -⟩ | ⟨_, _, hidle, -⟩ := timerEdge_cases p hold cmd s
  · exact hs
  · exact absurd hidle h
  · exact absurd hidle h

theorem timerEdge_none_of_idle (h : s.seq = .idle) : timerEdge p hold none s = s := by
  simp only [timerEdge, h]

theorem heldEdge_frame (s : State) :
    sameDecoder (heldEdge p hold s) s ∧ (heldEdge p hold s).voice = s.voice ∧ (heldEdge p hold s).inputs = s.inputs := by
  obtain h | h := heldEdge_cases p hold s
  · rw [h]
    exact ⟨⟨rfl, rfl, rfl, rfl, rfl, rfl, rfl, rfl, rfl⟩, rfl, rfl⟩
  · rw [h]
    exact seqEdge_frame p s

/-- The timer programmer's edge leaves the decoder and the companion as they are (R50). -/
theorem timerEdge_frame (s : State) :
    sameDecoder (timerEdge p hold cmd s) s ∧ (timerEdge p hold cmd s).voice = s.voice ∧
      (timerEdge p hold cmd s).inputs = s.inputs := by
  obtain ⟨-, h⟩ | ⟨-, h⟩ | ⟨w, ch, -, -, -, -, h⟩ := timerEdge_cases p hold cmd s
  · rw [h]
    exact heldEdge_frame p hold s
  · rw [h]
    exact ⟨⟨rfl, rfl, rfl, rfl, rfl, rfl, rfl, rfl, rfl⟩, rfl, rfl⟩
  · rw [h]
    exact heldEdge_frame p hold _

end

theorem heldEdge_false (p : Params) (s : State) : heldEdge p false s = seqEdge p s := rfl
theorem heldEdge_true (p : Params) (s : State) : heldEdge p true s = s := rfl

/-! ## Clock edges -/

theorem clockEdge_of_rst (p : Params) (run : Runner) {e : Edge} (h : e.rst = true) (s : State) :
    clockEdge p run e s = run .rst s := if_pos h

theorem clockEdge_of_offered (p : Params) {run : Runner} {e : Edge} {s s₁ s₂ : State} (h : e.rst = false)
    (hreg : runOffered run (e.reg.map .reg) s = .next s₁) (hrx : runOffered run (e.rx.map .rx) s₁ = .next s₂) :
    clockEdge p run e s = .next (timerEdge p e.hold e.cmd s₂) := by
  rw [clockEdge, if_neg (by simp [h]), hreg, andThen_next, hrx, andThen_next]

/-- An edge has a next state: the reset one, or the one the timer programmer's part leads to. -/
theorem clockEdge_total (e : Edge) (s : State) : ∃ t, clockEdge Config.params runFrame e s = .next t := by
  cases hr : e.rst
  · obtain ⟨s₁, h₁⟩ := runOffered_reg_total e.reg s
    obtain ⟨s₂, h₂⟩ := runOffered_rx_total e.rx s₁
    exact ⟨_, clockEdge_of_offered _ hr h₁ h₂⟩
  · exact ⟨_, clockEdge_of_rst _ _ hr s⟩

/-! ## Steps, by the stimulus taken -/

section
variable (p : Params) (run : Runner) {s : State} {rest : List Stimulus}

theorem stepOf_idle (h : s.inputs = []) : stepOf p run s = .next (timerEdge p false none (newCycle s)) := by
  rw [stepOf, h]
  exact clockEdge_quiet p run _

theorem stepOf_call {f : Frame} (h : s.inputs = .call f :: rest) (hbus : needsBus f = true → s.seq = .idle) :
    stepOf p run s = run f (s.taking rest) := by
  have hrun : (needsBus f && s.busy) = false := by
    rw [Bool.and_eq_false_iff, busy_eq_false_iff, ← Bool.not_eq_true]
    exact (em _).elim (fun hn => .inr (hbus hn)) .inl
  simp [stepOf, h, hrun]

theorem stepOf_call_held {f : Frame} (h : s.inputs = .call f :: rest) (hbus : needsBus f = true) (hbusy : s.seq ≠ .idle) :
    stepOf p run s = .next (timerEdge p false none (newCycle s)) := by
  simp [stepOf, h, hbus, (busy_eq_true_iff s).2 hbusy, clockEdge_quiet]

theorem stepOf_clock {e : Edge} (h : s.inputs = .clock e :: rest) :
    stepOf p run s = clockEdge p run e (s.taking rest) := by
  simp only [stepOf, h]

theorem stepOf_glue (h : s.inputs = .glue :: rest) : stepOf p run s = sinkEvent p s.evPort.report (s.taking rest) := by
  simp only [stepOf, h]

theorem stepOf_tick (h : s.inputs = .tick :: rest) : stepOf p run s = glideTick p (s.taking rest) := by
  simp only [stepOf, h]

end

/-! ## The companion never faults -/

section
variable (p : Params) (s : State) (r : Fault)

theorem reprogram_ne_fault (f : Nat) : reprogram p f s ≠ .fault r := by
  obtain ⟨-, h⟩ | ⟨-, h⟩ := reprogram_cases p f s <;> simp [h]

theorem applyPitchBend_ne_fault (value : Int) : applyPitchBend p value s ≠ .fault r := by
  unfold applyPitchBend
  split_ifs
  · simp
  · simp
  · exact reprogram_ne_fault p _ r _

theorem handleEvent_ne_fault (e : Event) : handleEvent p e s ≠ .fault r := by
  unfold handleEvent
  split
  · split_ifs
    · simp
    · exact reprogram_ne_fault p _ r _
  · simp
  · exact applyPitchBend_ne_fault p s r _
  all_goals simp

theorem sinkEvent_ne_fault (e : Option Event) : sinkEvent p e s ≠ .fault r := by
  cases e with
  | none => simp [sinkEvent]
  | some e =>
    cases h : e.registered with
    | false => simp [sinkEvent_of_not_registered p s h]
    | true => rw [sinkEvent_of_registered p s h]; exact handleEvent_ne_fault p s r e

theorem glideTick_ne_fault : glideTick p s ≠ .fault r := by
  unfold glideTick
  split_ifs
  · exact reprogram_ne_fault p _ r _
  · simp

end

/-! ## The statements about steps -/

/-- Settles O7: the word's instruction is well formed by the code table, and the call is run. -/
theorem stepRunsDecodedInstruction : Obligations.StepRunsDecodedInstruction :=
  fun _ _ _ _ hin hdec hbus => ⟨(codeRow_of_decode hdec).wf, by
    rw [step, stepOf_call _ _ hin hbus, runFrame_of_decode hdec]
    rfl⟩

/-- Settles O8: the step is a quiet edge, which a busy sequencer takes as its own and which leaves the schedule. -/
theorem callWaitsForTheBus : Obligations.CallWaitsForTheBus := by
  intro s f rest hin hbus hbusy
  refine ⟨seqEdge Config.params (begun s), ?_, (seqEdge_frame Config.params (begun s)).2.2, rfl⟩
  rw [step, stepOf_call_held _ _ hin hbus hbusy, timerEdge_of_busy (s := newCycle s) _ _ _ hbusy, heldEdge_false]
  rfl

/-- Settles O9: a quiet edge with the bus idle offers the timer programmer nothing. -/
theorem nothingOfferedChangesNothing : Obligations.NothingOfferedChangesNothing := by
  intro s hin hidle
  rw [step, stepOf_idle _ _ hin, timerEdge_none_of_idle (s := newCycle s) _ _ hidle]
  rfl

/-- Settles O10: `clockEdge_of_offered`, with the states between given by the words the two ports offer. -/
theorem clockEdgeOrder : Obligations.ClockEdgeOrder := by
  intro s reg rx cmd hold rest hin
  obtain ⟨s₁, hreg⟩ := runOffered_reg_total reg (s.taking rest)
  obtain ⟨s₂, hrx⟩ := runOffered_rx_total rx s₁
  refine ⟨s₁, s₂, ?_, ?_, ?_⟩
  · cases reg with
    | none => exact (Host.Outcome.next.inj hreg).symm
    | some w => exact runFrame_eq_next_iff.1 hreg
  · cases rx with
    | none => exact (Host.Outcome.next.inj hrx).symm
    | some b => exact runFrame_eq_next_iff.1 hrx
  · rw [step, stepOf_clock _ _ hin, clockEdge_of_offered Config.params rfl hreg hrx]

theorem kindInRange_kindCode (k : EvKind) : kindInRange (kindCode k) = true := by
  rw [← kindOfCode_isSome, kindOfCode_kindCode, Option.isSome_some]

/-- The state after a registration command for a kind (R165, R167). -/
def slotWritten (k : EvKind) (en : Bool) (s : State) : State :=
  { s with hreg := hregWrite s.hreg k en, regPort := .reports .outNone }

/-- Registering a kind by its code writes the kind's slot (R165). -/
theorem runFrame_register (k : EvKind) (en : Bool) (s : State) :
    runFrame (.reg (BitVec.ofBool en ++ kindCode k)) s = .next (slotWritten k en s) := by
  have hslot : registerSlot (kindCode k) en s = slotWritten k en s := by
    rw [registerSlot, kindOfCode_kindCode, slotWritten]
  rw [← hslot]
  cases en with
  | false => exact runFrame_of_decode (decode_unregister (kindInRange_kindCode k)) s
  | true => exact runFrame_of_decode (decode_register (kindInRange_kindCode k)) s

/-- The table as written marks the events of the kind (R53, R165). -/
theorem registered_slotWritten (k : EvKind) (en : Bool) (s : State) : registered (slotWritten k en s) k = en := by
  rw [registered, slotWritten, hregWrite_getLsbD, if_pos rfl]

/-- Settles O11: the byte is dispatched in the state the registration leaves, and the timer's part leaves the ports. -/
theorem registerOnTheEdgeOfTheByte : Obligations.RegisterOnTheEdgeOfTheByte := by
  intro s n hold rest hin
  have hstep : step s = .next (timerEdge Config.params hold none
      (dispatch Config.params (.rt n) 0#4 0#8 0#8 (slotWritten (.rt n) true (s.taking rest)))) := by
    rw [step, stepOf_clock _ _ hin]
    exact clockEdge_of_offered Config.params rfl (runFrame_register (.rt n) true _) (runFrame_rtByte n _)
  obtain ⟨⟨-, -, -, -, -, -, hout, hev, hreg⟩, -, -⟩ := timerEdge_frame Config.params hold none
    (dispatch Config.params (.rt n) 0#4 0#8 0#8 (slotWritten (.rt n) true (s.taking rest)))
  refine ⟨_, hstep, hreg, hout, hev.trans ?_⟩
  rw [dispatch_evPort, registered_slotWritten]

/-- Settles O12: by the stimulus taken; a call faults only if running its word does, and an edge never does. -/
theorem noInputStopsTheBlocks : Obligations.NoInputStopsTheBlocks := by
  intro s
  obtain ⟨hin, h⟩ | ⟨f, rest, hin, -, -, h⟩ | ⟨f, rest, hin, -, h⟩ | ⟨e, rest, hin, h⟩ | ⟨rest, hin, h⟩ | ⟨rest, hin, h⟩ :=
    step_cases s
  · exact ⟨by simp [h, clockEdge_quiet], fun _ _ _ => ⟨_, h⟩⟩
  · exact ⟨by simp [h, clockEdge_quiet], fun _ _ _ => ⟨_, h⟩⟩
  · refine ⟨fun r => h ▸ runFrame_ne_fault f _ r, fun hbus _ _ => h ▸ runFrame_total (fun b hb => ?_) _⟩
    exact hbus b rest (hb ▸ hin)
  · obtain ⟨t, ht⟩ := clockEdge_total e (s.taking rest)
    exact ⟨by simp [h, ht], fun _ _ _ => ⟨t, h.trans ht⟩⟩
  · exact ⟨fun r => h ▸ sinkEvent_ne_fault _ _ r _, fun _ hglue _ => absurd hin (hglue rest)⟩
  · exact ⟨fun r => h ▸ glideTick_ne_fault _ _ r, fun _ _ htick => absurd hin (htick rest)⟩

/-! ## The statements about reset, the companion's turns and the parameters -/

/-- Settles O15: each value is the one `State.resetWith` writes. -/
theorem resetValues : Obligations.ResetValues := by
  have entry : ∀ c : TimerCh, cacheGet State.reset.cache c = CacheEntry.reset := by
    intro c
    fin_cases c <;> rfl
  refine ⟨rfl, rfl, rfl, rfl, rfl, rfl, fun c => ?_, rfl, rfl, rfl, rfl, rfl, rfl, rfl, rfl, rfl, rfl, rfl, rfl, rfl, rfl,
    rfl, rfl, rfl, rfl, rfl, rfl, rfl, rfl, rfl, rfl⟩
  rw [entry c]
  exact ⟨rfl, rfl, rfl, rfl⟩

/-- Settles O16: RESET is `resetOp`, in every state. -/
theorem resetFromAnyState : Obligations.ResetFromAnyState :=
  fun _ => rfl

/-- Settles O17: with `rst = 1` the edge runs the reset word and nothing else. -/
theorem resetWinsOnItsEdge : Obligations.ResetWinsOnItsEdge := by
  intro s rx reg cmd hold rest hin
  rw [step, stepOf_clock _ _ hin, clockEdge_of_rst _ _ rfl, runFrame_rst]
  rfl

/-- Settles O57: a turn of the event sink and a tick act on the state of a new cycle. -/
theorem companionActsWhenScheduled : Obligations.CompanionActsWhenScheduled :=
  fun _ _ => ⟨fun hin => stepOf_glue _ _ hin, fun hin => stepOf_tick _ _ hin⟩

theorem runFrameWith_of_decode {p : Params} {f : Frame} {i : Instr} (h : decodeWith p f = .ok i) (s : State) :
    runFrameWith p f s = execWith p i s := by
  simp only [runFrameWith, h]

/-- Settles O59: the machine's functions are those of any parameters at its own, and a step for any parameters is what
`stepOf` says of the stimulus taken. -/
theorem parametersAreArguments : Obligations.ParametersAreArguments := by
  refine ⟨fun f => rfl, fun i => rfl, fun i s => (execWith_params i s).symm, rfl, fun s => ?_,
    fun p s f rest i hin hdec hbus => ?_, fun p s rest => ⟨fun e hin => stepOf_clock _ _ hin, fun hin => stepOf_idle _ _ hin,
      fun w hin hbusy => stepOf_call_held _ _ hin rfl hbusy, fun hin => stepOf_glue _ _ hin,
      fun hin => stepOf_tick _ _ hin⟩⟩
  · rw [stepWith, runFrameWith_params, step]
  · rw [stepWith, stepOf_call _ _ hin hbus, runFrameWith_of_decode hdec]
    rfl

end Sys2Proof.Machine

/-!
PROOFS. The invariants. They fall into those of the decoder, those of the timer programmer and that of the companion, each
about the fields of its part alone (R50). Every instruction and every edge of the sequencer keeps each of the three; the
step then adds them up by the stimulus taken.
-/

namespace Sys2Proof.Machine

open Sys2Proof.Claims

/-! ## The invariants by the part they are about -/

/-- The decoder's invariants (R15, R16, R17, R164). -/
structure DecoderInv (s : State) : Prop where
  statusMatches : statusMatches s
  dataOneClear : dataOneClear s
  dataTwoClear : dataTwoClear s
  pstateReachable : pstateReachable s
  counterInRange : counterInRange s
  hregHole : hregHole s
  outputsAgree : outputsAgree s

/-- The timer programmer's invariants (R23, R24 (b)). -/
structure TimerInv (s : State) : Prop where
  pinsRest : pinsRest s
  sequencerInOrder : sequencerInOrder s

theorem inv_iff (s : State) : Inv s ↔ DecoderInv s ∧ TimerInv s ∧ voiceRest s :=
  ⟨fun ⟨h1, h2, h3, h4, h5, h6, h7, h8, h9, h10⟩ => ⟨⟨h1, h2, h3, h4, h5, h6, h8⟩, ⟨h7, h10⟩, h9⟩,
    fun ⟨⟨h1, h2, h3, h4, h5, h6, h8⟩, ⟨h7, h10⟩, h9⟩ => ⟨h1, h2, h3, h4, h5, h6, h7, h8, h9, h10⟩⟩

theorem sameDecoder_refl (s : State) : sameDecoder s s := ⟨rfl, rfl, rfl, rfl, rfl, rfl, rfl, rfl, rfl⟩

theorem sameTimer_refl (s : State) : sameTimer s s := ⟨rfl, rfl, rfl, rfl⟩

section
variable {s t : State}

theorem DecoderInv.congr (hs : DecoderInv s) (h : sameDecoder t s) : DecoderInv t := by
  obtain ⟨hp, hst, h1, h2, hcnt, hreg, hout, hev, -⟩ := h
  obtain ⟨i1, i2, i3, i4, i5, i6, i7⟩ := hs
  simp only [Machine.statusMatches, Machine.dataOneClear, Machine.dataTwoClear, Machine.pstateReachable,
    Machine.counterInRange, Machine.hregHole, Machine.outputsAgree, State.evValid, ← hp, ← hst, ← h1, ← h2, ← hcnt,
    ← hreg, ← hout, ← hev] at i1 i2 i3 i4 i5 i6 i7
  exact ⟨i1, i2, i3, i4, i5, i6, i7⟩

/-- The operations a step reports are no part of the invariant. -/
theorem TimerInv.congr (hs : TimerInv s) (hpins : t.pins = s.pins) (hseq : t.seq = s.seq) : TimerInv t := by
  obtain ⟨hrest, horder⟩ := hs
  simp only [Machine.pinsRest, Machine.sequencerInOrder, ← hpins, ← hseq] at hrest horder
  exact ⟨hrest, horder⟩

theorem voiceRest_congr (h : t.voice = s.voice) (hs : voiceRest s) : voiceRest t := by
  simp only [voiceRest, ← h] at hs
  exact hs

end

/-! ## Reset -/

theorem decoderInv_reset : DecoderInv State.reset where
  statusMatches := fun k h => by rcases h with h | h <;> cases h
  dataOneClear := ⟨fun _ => rfl, rfl⟩
  dataTwoClear := rfl
  pstateReachable := by unfold pstateReachable; decide
  counterInRange := by unfold counterInRange; decide
  hregHole := rfl
  outputsAgree := ⟨by decide, fun e h => by cases h⟩

theorem timerInv_reset : TimerInv State.reset where
  pinsRest := ⟨rfl, rfl⟩
  sequencerInOrder := fun _ _ _ h => by cases h

theorem voiceRest_reset : voiceRest State.reset := ⟨fun _ => ⟨rfl, rfl, rfl⟩, by decide⟩

/-- Settles O14: the reset values meet each of the three parts. -/
theorem resetHasInvariants : Obligations.ResetHasInvariants :=
  (inv_iff _).2 ⟨decoderInv_reset, timerInv_reset, voiceRest_reset⟩

/-! ## The decoder's operations keep its invariants -/

section
variable {s : State}

/-- Between messages, or awaiting a first data byte, the stored bytes are clear. -/
theorem dataOneClear_of_zero {t : State} (h : t.data1 = 0#8) : dataOneClear t :=
  ⟨fun _ => h, by rw [h]; rfl⟩

theorem outputsAgree_of_none {t : State} (hout : t.outPort ≠ .reports .outDispatched) (hev : t.evPort = .quiet) :
    outputsAgree t := by
  refine ⟨⟨fun h => absurd h hout, fun h => ?_⟩, fun e h => ?_⟩
  · simp [State.evValid, hev] at h
  · simp [hev] at h

theorem outputsAgree_of_event {t : State} {e : Event} (hout : t.outPort = .reports .outDispatched)
    (hev : t.evPort = .reports e) (hsc : ∀ n, e.kind ≠ .sc n) : outputsAgree t := by
  refine ⟨⟨fun _ => by simp [State.evValid, hev], fun _ => hout⟩, fun e' h => ?_⟩
  obtain rfl : e = e' := Port.reports.inj (hev.symm.trans h)
  exact hsc

/-- The count stays a number of `EVCNT_W` bits (R163). -/
theorem counterInRange_dispatched {t : State} (h : t.evcnt = (s.evcnt + 1) % 2 ^ Config.params.evcntW) :
    counterInRange t := by
  rw [counterInRange, h]
  exact Nat.mod_lt _ (Nat.two_pow_pos _)

theorem DecoderInv.noMessage (h : DecoderInv s) : DecoderInv (noMessage s) where
  statusMatches := h.statusMatches
  dataOneClear := h.dataOneClear
  dataTwoClear := h.dataTwoClear
  pstateReachable := h.pstateReachable
  counterInRange := h.counterInRange
  hregHole := h.hregHole
  outputsAgree := outputsAgree_of_none (by simp) rfl

theorem DecoderInv.recordStatus (h : DecoderInv s) {b : Byte} {q : PState}
    (hq : q = .waitingForStatus ∨ ∃ k, q = .awaitFirst k ∧ b.extractLsb' 4 4 = 1#1 ++ cvCode k) :
    DecoderInv (recordStatus b q s) where
  statusMatches := by
    intro k hk
    rw [recordStatus_pstate] at hk
    obtain rfl | ⟨j, rfl, hb⟩ := hq
    · simp at hk
    · obtain rfl : j = k := by simpa using hk
      exact hb
  dataOneClear := dataOneClear_of_zero rfl
  dataTwoClear := rfl
  pstateReachable := by
    obtain rfl | ⟨j, rfl, -⟩ := hq <;> simp [Machine.pstateReachable]
  counterInRange := h.counterInRange
  hregHole := h.hregHole
  outputsAgree := outputsAgree_of_none (by simp) rfl

theorem DecoderInv.dispatch_realTime (h : DecoderInv s) (n : BitVec 3) :
    DecoderInv (dispatch Config.params (.rt n) 0#4 0#8 0#8 s) where
  statusMatches := h.statusMatches
  dataOneClear := h.dataOneClear
  dataTwoClear := h.dataTwoClear
  pstateReachable := h.pstateReachable
  counterInRange := counterInRange_dispatched rfl
  hregHole := h.hregHole
  outputsAgree := outputsAgree_of_event rfl rfl (by simp)

theorem DecoderInv.storeFirst (h : DecoderInv s) {k : CvKind} (hk : oneDataByte k = false) (hs : s.pstate = .awaitFirst k)
    (v : BitVec 7) : DecoderInv (storeFirst k (dataOf v) s) where
  statusMatches := by
    intro j hj
    obtain rfl : k = j := by simpa using hj
    exact h.statusMatches k (.inl hs)
  dataOneClear := by
    refine ⟨fun hne => absurd rfl (hne k), ?_⟩
    rw [storeFirst_data1]
    revert v
    decide
  dataTwoClear := h.dataTwoClear
  pstateReachable := by
    have hne : k ≠ .programChange ∧ k ≠ .channelAftertouch := by
      rw [← not_or, ← oneDataByte_iff, hk]
      decide
    simpa [Machine.pstateReachable] using hne
  counterInRange := h.counterInRange
  hregHole := h.hregHole
  outputsAgree := outputsAgree_of_none (by simp) rfl

theorem DecoderInv.complete (h : DecoderInv s) {k : CvKind} (hs : s.pstate = .awaitFirst k ∨ s.pstate = .awaitSecond k)
    (d1 d2 : Byte) : DecoderInv (complete Config.params k d1 d2 s) := by
  have hend : nextAfterComplete Config.params k = .awaitFirst k ∨
      nextAfterComplete Config.params k = .waitingForStatus := by
    rw [nextAfterComplete_params, afterMessage]
    split_ifs <;> simp
  refine ⟨fun j hj => ?_, dataOneClear_of_zero rfl, rfl, ?_, counterInRange_dispatched rfl, h.hregHole,
    outputsAgree_of_event rfl rfl (by simp)⟩
  · rw [complete_pstate] at hj
    obtain hnext | hnext := hend
    · obtain rfl : k = j := by simpa [hnext] using hj
      exact h.statusMatches k hs
    · simp [hnext] at hj
  · rw [Machine.pstateReachable, complete_pstate]
    obtain hnext | hnext := hend <;> simp [hnext]

theorem DecoderInv.dataByte (h : DecoderInv s) (v : BitVec 7) : DecoderInv (dataByte Config.params (dataOf v) s) := by
  obtain ⟨-, e⟩ | ⟨k, hk, hs, e⟩ | ⟨k, -, hs, e⟩ | ⟨k, -, hs, e⟩ := dataByte_cases Config.params (dataOf v) s <;> rw [e]
  · exact h.noMessage
  · exact h.storeFirst hk hs v
  · exact h.complete (.inl hs) _ _
  · exact h.complete (.inr hs) _ _

theorem DecoderInv.registerSlot (h : DecoderInv s) (c : BitVec 5) (en : Bool) : DecoderInv (registerSlot c en s) := by
  obtain ⟨k, -, e⟩ | ⟨-, e⟩ := registerSlot_cases c en s <;> rw [e]
  · refine ⟨h.statusMatches, h.dataOneClear, h.dataTwoClear, h.pstateReachable, h.counterInRange, ?_, h.outputsAgree⟩
    rw [Machine.hregHole, hregWrite_getLsbD, if_neg (kindCode_lt k).2.symm]
    exact h.hregHole
  · exact ⟨h.statusMatches, h.dataOneClear, h.dataTwoClear, h.pstateReachable, h.counterInRange, h.hregHole,
      h.outputsAgree⟩

/-- A step begins with nothing presented, which agrees with everything. -/
theorem DecoderInv.taking (h : DecoderInv s) (rest : List Stimulus) : DecoderInv (s.taking rest) where
  statusMatches := h.statusMatches
  dataOneClear := h.dataOneClear
  dataTwoClear := h.dataTwoClear
  pstateReachable := h.pstateReachable
  counterInRange := h.counterInRange
  hregHole := h.hregHole
  outputsAgree := outputsAgree_of_none (by simp) rfl

end

/-! ## Which block an instruction's effect is on -/

section
variable (s : State)

theorem registerSlot_sameTimer (c : BitVec 5) (en : Bool) : sameTimer (registerSlot c en s) s := by
  obtain ⟨k, -, h⟩ | ⟨-, h⟩ := registerSlot_cases c en s <;> rw [h] <;> exact sameTimer_refl s

theorem dataByte_sameTimer (p : Params) (b : Byte) : sameTimer (dataByte p b s) s := by
  obtain ⟨-, h⟩ | ⟨k, -, -, h⟩ | ⟨k, -, -, h⟩ | ⟨k, -, -, h⟩ := dataByte_cases p b s <;> rw [h] <;> exact sameTimer_refl s

theorem writeChannelOp_sameDecoder (p : Params) (c : BitVec 2) (l m : Byte) : sameDecoder (writeChannelOp p c l m s) s := by
  obtain h | ⟨ch, -, -, -, h⟩ := writeChannelOp_cases p c l m s <;> rw [h] <;> exact sameDecoder_refl s

theorem emitControlWord_sameDecoder (p : Params) (b : Byte) : sameDecoder (emitControlWord p b s) s := by
  obtain h | ⟨x, ops, w, n, -, -, -, -, h⟩ := emitControlWord_cases p b s <;> rw [h] <;> exact sameDecoder_refl s

theorem registerSlot_frame (c : BitVec 5) (en : Bool) :
    (registerSlot c en s).voice = s.voice ∧ (registerSlot c en s).inputs = s.inputs := by
  obtain ⟨k, -, h⟩ | ⟨-, h⟩ := registerSlot_cases c en s <;> rw [h] <;> exact ⟨rfl, rfl⟩

theorem dataByte_frame (p : Params) (b : Byte) :
    (dataByte p b s).voice = s.voice ∧ (dataByte p b s).inputs = s.inputs := by
  obtain ⟨-, h⟩ | ⟨k, -, -, h⟩ | ⟨k, -, -, h⟩ | ⟨k, -, -, h⟩ := dataByte_cases p b s <;> rw [h] <;> exact ⟨rfl, rfl⟩

theorem writeChannelOp_frame (p : Params) (c : BitVec 2) (l m : Byte) :
    (writeChannelOp p c l m s).voice = s.voice ∧ (writeChannelOp p c l m s).inputs = s.inputs := by
  obtain h | ⟨ch, -, -, -, h⟩ := writeChannelOp_cases p c l m s <;> rw [h] <;> exact ⟨rfl, rfl⟩

theorem emitControlWord_frame (p : Params) (b : Byte) :
    (emitControlWord p b s).voice = s.voice ∧ (emitControlWord p b s).inputs = s.inputs := by
  obtain h | ⟨x, ops, w, n, -, -, -, -, h⟩ := emitControlWord_cases p b s <;> rw [h] <;> exact ⟨rfl, rfl⟩

end

/-! ## The timer programmer's operations keep its invariants -/

theorem dataOps_ne_nil (p : Params) (x : Pending) : dataOps p x ≠ [] := by
  simp [dataOps]

/-- A command begun: its operations are all to be performed, and they end with the pins released (R24 (b)). -/
theorem timerInv_begun {s : State} {x : Pending} (hseq : s.seq = .busy x (writeOps Config.params x) 0)
    (hx : (x.dl || x.dm) = true) : TimerInv s := by
  refine ⟨?_, fun y ops n h => ?_⟩
  · rw [pinsRest, hseq]
    exact pinOpsOn_writeOps_rest _ _ _
  · obtain ⟨rfl, rfl, rfl⟩ := Seq.busy.inj (hseq.symm.trans h)
    exact ⟨hx, by simp [writeOps, controlOps], List.suffix_rfl, Nat.succ_pos _⟩

section
variable {s : State}

theorem TimerInv.writeChannelOp (h : TimerInv s) (c : BitVec 2) (l m : Byte) :
    TimerInv (writeChannelOp Config.params c l m s) := by
  obtain e | ⟨ch, hidle, -, -, e⟩ := writeChannelOp_cases Config.params c l m s <;> rw [e]
  · exact h.congr rfl rfl
  · refine ⟨?_, fun x ops n hbusy => ?_⟩
    · rw [Machine.pinsRest, perform_seq, hidle]
      exact pinOpsOn_writeOps_rest _ _ _
    · rw [perform_seq, hidle] at hbusy
      cases hbusy

/-- What is left after some operations of a sequence in progress have been performed is still its end, and leads to the
same pins. -/
theorem TimerInv.performed (h : TimerInv s) {x : Pending} {now later : List PinOp} {w n : Nat} (hlater : later ≠ [])
    (hseq : s.seq = .busy x (now ++ later) w) (hn : n < Config.params.tSettle) :
    TimerInv { perform now s with seq := .busy x later n } := by
  obtain ⟨hrest, horder⟩ := h
  obtain ⟨hx, -, hend, -⟩ := horder x _ w hseq
  refine ⟨?_, fun y ops n' hbusy => ?_⟩
  · rw [Machine.pinsRest, hseq, remainingOps, pinOpsOn_append] at hrest
    exact hrest
  · obtain ⟨rfl, rfl, rfl⟩ := Seq.busy.inj hbusy
    exact ⟨hx, hlater, (List.suffix_append now later).trans hend, hn⟩

theorem TimerInv.emitControlWord (h : TimerInv s) (b : Byte) : TimerInv (emitControlWord Config.params b s) := by
  obtain e | ⟨x, ops, w, n, hseq, -, hn, hpos, e⟩ := emitControlWord_cases Config.params b s <;> rw [e]
  · exact h.congr rfl rfl
  · have hlen : 0 < (dataOps Config.params x).length := List.length_pos_of_ne_nil (dataOps_ne_nil _ x)
    have hleft : ops.drop n ≠ [] := by
      rw [ne_eq, List.drop_eq_nil_iff]
      omega
    exact h.performed hleft (by rw [List.take_append_drop, hseq]) (Nat.succ_pos _)

theorem TimerInv.seqEdge (h : TimerInv s) : TimerInv (seqEdge Config.params s) := by
  obtain ⟨-, e⟩ | ⟨x, ops, n, hseq, e⟩ | ⟨x, ops, hseq, hleft, e⟩ | ⟨x, ops, hseq, hlast, e⟩ :=
    seqEdge_cases Config.params s <;> rw [e]
  · exact h
  · obtain ⟨hrest, horder⟩ := h
    obtain ⟨hx, hne, hend, hn⟩ := horder x ops (n + 1) hseq
    refine ⟨?_, fun y ops' n' hbusy => ?_⟩
    · rwa [Machine.pinsRest, hseq] at hrest
    · obtain ⟨rfl, rfl, rfl⟩ := Seq.busy.inj hbusy
      exact ⟨hx, hne, hend, by omega⟩
  · exact h.performed hleft (by rw [splitEdge_append, hseq]) (settleWait_lt _ _)
  · have hall : (splitEdge ops).1 = ops := by simpa [hlast] using splitEdge_append ops
    obtain ⟨hrest, -⟩ := h
    refine ⟨?_, fun _ _ _ hbusy => by cases hbusy⟩
    rw [Machine.pinsRest, hseq] at hrest
    rw [hall]
    exact hrest

theorem TimerInv.heldEdge (h : TimerInv s) (hold : Bool) : TimerInv (heldEdge Config.params hold s) := by
  obtain e | e := heldEdge_cases Config.params hold s <;> rw [e]
  · exact h
  · exact h.seqEdge

theorem TimerInv.timerEdge (h : TimerInv s) (hold : Bool) (cmd : Option (BitVec 18)) :
    TimerInv (timerEdge Config.params hold cmd s) := by
  obtain ⟨-, e⟩ | ⟨-, e⟩ | ⟨w, ch, -, -, -, hdirty, e⟩ := timerEdge_cases Config.params hold cmd s <;> rw [e]
  · exact h.heldEdge hold
  · exact h
  · exact (timerInv_begun rfl hdirty).heldEdge hold

end

/-! ## Instructions, words and edges keep the invariants -/

section
variable {s t : State}

theorem Effect.keeps_inv (h : Effect s t) (hs : Inv s) : Inv t := by
  rw [inv_iff] at hs ⊢
  obtain ⟨hd, ht, hv⟩ := hs
  cases h with
  | recorded b q hq => exact ⟨hd.recordStatus hq, ht.congr rfl rfl, voiceRest_congr rfl hv⟩
  | realTime n => exact ⟨hd.dispatch_realTime n, ht.congr rfl rfl, voiceRest_congr rfl hv⟩
  | data v =>
    obtain ⟨-, hpins, hseq, -⟩ := dataByte_sameTimer s Config.params (dataOf v)
    exact ⟨hd.dataByte v, ht.congr hpins hseq, voiceRest_congr (dataByte_frame s _ _).1 hv⟩
  | registration c en =>
    obtain ⟨-, hpins, hseq, -⟩ := registerSlot_sameTimer s c en
    exact ⟨hd.registerSlot c en, ht.congr hpins hseq, voiceRest_congr (registerSlot_frame s c en).1 hv⟩
  | command c l m =>
    exact ⟨hd.congr (writeChannelOp_sameDecoder s _ c l m), ht.writeChannelOp c l m,
      voiceRest_congr (writeChannelOp_frame s _ c l m).1 hv⟩
  | emission b =>
    exact ⟨hd.congr (emitControlWord_sameDecoder s _ b), ht.emitControlWord b,
      voiceRest_congr (emitControlWord_frame s _ b).1 hv⟩
  | reset =>
    exact ⟨decoderInv_reset.congr ⟨rfl, rfl, rfl, rfl, rfl, rfl, rfl, rfl, rfl⟩, timerInv_reset.congr rfl rfl,
      voiceRest_congr rfl voiceRest_reset⟩

theorem runFrame_keeps_inv {f : Frame} (h : runFrame f s = .next t) (hs : Inv s) : Inv t := by
  obtain ⟨i, -, hi⟩ := runFrame_eq_next_iff.1 h
  obtain ⟨t', ht', heffect⟩ := exec_effect i s
  obtain rfl : t' = t := Host.Outcome.next.inj (ht'.symm.trans hi)
  exact heffect.keeps_inv hs

theorem runOffered_keeps_inv {f : Option Frame} (h : runOffered runFrame f s = .next t) (hs : Inv s) : Inv t := by
  cases f with
  | none => exact Host.Outcome.next.inj h ▸ hs
  | some f => exact runFrame_keeps_inv h hs

theorem timerEdge_keeps_inv (hold : Bool) (cmd : Option (BitVec 18)) (hs : Inv s) :
    Inv (timerEdge Config.params hold cmd s) := by
  rw [inv_iff] at hs ⊢
  obtain ⟨hd, ht, hv⟩ := hs
  obtain ⟨hdec, hvoice, -⟩ := timerEdge_frame Config.params hold cmd s
  exact ⟨hd.congr hdec, ht.timerEdge hold cmd, voiceRest_congr hvoice hv⟩

theorem clockEdge_keeps_inv {e : Edge} (h : clockEdge Config.params runFrame e s = .next t) (hs : Inv s) : Inv t := by
  cases hr : e.rst
  · obtain ⟨s₁, h₁⟩ := runOffered_reg_total e.reg s
    obtain ⟨s₂, h₂⟩ := runOffered_rx_total e.rx s₁
    rw [clockEdge_of_offered _ hr h₁ h₂] at h
    obtain rfl := Host.Outcome.next.inj h
    exact timerEdge_keeps_inv _ _ (runOffered_keeps_inv h₂ (runOffered_keeps_inv h₁ hs))
  · rw [clockEdge_of_rst _ _ hr] at h
    exact runFrame_keeps_inv h hs

theorem taking_keeps_inv (rest : List Stimulus) (hs : Inv s) : Inv (s.taking rest) := by
  rw [inv_iff] at hs ⊢
  obtain ⟨hd, ht, hv⟩ := hs
  exact ⟨hd.taking rest, ht.congr rfl rfl, voiceRest_congr rfl hv⟩

end

/-! ## The companion keeps the invariants -/

/-- A record of the voice that is in order: quiescent with no note held, and its bend in range (R210). -/
def VoiceInOrder (v : Voice) : Prop :=
  (v.notesHeld = 0 → v.baseFrequency = Config.params.fQuiescent ∧ v.targetFrequency = Config.params.fQuiescent ∧
    v.actualFrequency = Config.params.fQuiescent) ∧ -8192 ≤ v.pitchBendValue ∧ v.pitchBendValue ≤ 8191

theorem voiceRest_iff (s : State) : voiceRest s ↔ VoiceInOrder s.voice := Iff.rfl

/-- The companion changes its own record and the schedule alone (R50), and keeps its record in order. -/
def CompanionKeeps (s : State) (r : Result) : Prop :=
  ∀ t, r = .next t → ∃ v ins, t = { s with voice := v, inputs := ins } ∧ (VoiceInOrder s.voice → VoiceInOrder v)

section
variable {s : State}

theorem companionKeeps_next {v : Voice} (ins : List Stimulus) (hv : VoiceInOrder s.voice → VoiceInOrder v) :
    CompanionKeeps s (.next { s with voice := v, inputs := ins }) := by
  rintro t ⟨⟩
  exact ⟨v, ins, rfl, hv⟩

theorem companionKeeps_reprogram (p : Params) (f : Nat) {v : Voice} (hv : VoiceInOrder s.voice → VoiceInOrder v) :
    CompanionKeeps s (reprogram p f { s with voice := v }) := by
  obtain ⟨-, h⟩ | ⟨-, h⟩ := reprogram_cases p f { s with voice := v } <;> rw [h]
  · rintro t ⟨⟩
  · exact companionKeeps_next _ hv

theorem companionKeeps_noteOn (p : Params) (base : Nat) : CompanionKeeps s (noteOn p base s) :=
  companionKeeps_reprogram p _ fun ⟨_, hbend⟩ => ⟨fun h => absurd h (Nat.succ_ne_zero _), hbend⟩

theorem companionKeeps_noteOff : CompanionKeeps s (.next (noteOff Config.params s)) := by
  obtain ⟨-, h⟩ | ⟨-, h⟩ | ⟨n, -, h⟩ := noteOff_cases Config.params s <;> rw [h]
  · exact companionKeeps_next s.inputs id
  · exact companionKeeps_next _ fun ⟨_, hbend⟩ => ⟨fun _ => ⟨rfl, rfl, rfl⟩, hbend⟩
  · exact companionKeeps_next s.inputs fun ⟨_, hbend⟩ => ⟨fun h => absurd h (Nat.succ_ne_zero _), hbend⟩

theorem companionKeeps_applyPitchBend (p : Params) {value : Int} (hvalue : -8192 ≤ value ∧ value ≤ 8191) :
    CompanionKeeps s (applyPitchBend p value s) := by
  unfold applyPitchBend
  split_ifs with hheld
  · exact companionKeeps_next s.inputs fun ⟨hquiet, _⟩ => ⟨hquiet, hvalue⟩
  · exact companionKeeps_next s.inputs fun _ => ⟨fun h => absurd h hheld, hvalue⟩
  · exact companionKeeps_reprogram p _ fun _ => ⟨fun h => absurd h hheld, hvalue⟩

/-- The bend value of any two bytes is in range (R219). -/
theorem bendValue_range (d1 d2 : Byte) : -8192 ≤ bendValue d1 d2 ∧ bendValue d1 d2 ≤ 8191 := by
  have := (bend14 d1 d2).isLt
  simp only [bendValue]
  omega

theorem companionKeeps_handleEvent (e : Event) : CompanionKeeps s (handleEvent Config.params e s) := by
  unfold handleEvent
  split
  · split_ifs
    · exact companionKeeps_noteOff
    · exact companionKeeps_noteOn _ _
  · exact companionKeeps_noteOff
  · exact companionKeeps_applyPitchBend _ (bendValue_range _ _)
  all_goals exact companionKeeps_next s.inputs id

theorem companionKeeps_sinkEvent (e : Option Event) : CompanionKeeps s (sinkEvent Config.params e s) := by
  cases e with
  | none => exact companionKeeps_next s.inputs id
  | some e =>
    cases h : e.registered with
    | false =>
      rw [sinkEvent_of_not_registered _ s h]
      exact companionKeeps_next s.inputs id
    | true =>
      rw [sinkEvent_of_registered _ s h]
      exact companionKeeps_handleEvent e

theorem companionKeeps_glideTick (p : Params) : CompanionKeeps s (glideTick p s) := by
  unfold glideTick
  split_ifs with h
  · simp only [Bool.and_eq_true, decide_eq_true_eq] at h
    obtain ⟨⟨-, hheld⟩, -⟩ := h
    exact companionKeeps_reprogram p _ fun ⟨_, hbend⟩ => ⟨fun h => absurd h (Nat.ne_of_gt hheld), hbend⟩
  · exact companionKeeps_next s.inputs id

theorem CompanionKeeps.inv {r : Result} {t : State} (h : CompanionKeeps s r) (ht : r = .next t) (hs : Inv s) : Inv t := by
  obtain ⟨v, ins, rfl, hv⟩ := h t ht
  rw [inv_iff] at hs ⊢
  obtain ⟨hd, htimer, hvoice⟩ := hs
  exact ⟨hd.congr (sameDecoder_refl s), htimer.congr rfl rfl, (voiceRest_iff _).2 (hv ((voiceRest_iff s).1 hvoice))⟩

end

/-- Settles O13: by the stimulus taken; words, edges and the companion's turns keep the invariants. -/
theorem stepKeepsInvariants : Obligations.StepKeepsInvariants := by
  intro s t hs h
  obtain ⟨-, e⟩ | ⟨_, _, -, -, -, e⟩ | ⟨f, rest, -, -, e⟩ | ⟨ed, rest, -, e⟩ | ⟨rest, -, e⟩ | ⟨rest, -, e⟩ :=
    step_cases s <;> rw [e] at h
  · exact clockEdge_keeps_inv h (taking_keeps_inv s.inputs hs)
  · exact clockEdge_keeps_inv h (taking_keeps_inv s.inputs hs)
  · exact runFrame_keeps_inv h (taking_keeps_inv rest hs)
  · exact clockEdge_keeps_inv h (taking_keeps_inv rest hs)
  · exact (companionKeeps_sinkEvent _).inv h (taking_keeps_inv rest hs)
  · exact (companionKeeps_glideTick _).inv h (taking_keeps_inv rest hs)

end Sys2Proof.Machine

/-!
PROOFS. Byte streams. A stream is one `receive` after the other (`rxAll`), so what it presents is read byte by byte: each
byte presents one outcome, and an event exactly when it is `OUT_DISPATCHED` (`receive_outputs`). Whole messages are followed
from their status byte (`feedEvents_message`) and, for running status, from their first data byte (`feedEvents_run`).
-/

namespace Sys2Proof.Machine

open Sys2Proof.Claims

/-! ## A stream as one `receive` after the other -/

/-- The state after a stream. -/
def rxAll : List Byte → State → State
  | [], s => s
  | b :: bs, s => rxAll bs (receive Config.params b s)

@[simp] theorem rxAll_nil (s : State) : rxAll [] s = s := rfl
@[simp] theorem rxAll_cons (b : Byte) (bs : List Byte) (s : State) :
    rxAll (b :: bs) s = rxAll bs (receive Config.params b s) := rfl

theorem rxAll_append (as bs : List Byte) (s : State) : rxAll (as ++ bs) s = rxAll bs (rxAll as s) := by
  induction as generalizing s with
  | nil => rfl
  | cons a as ih => exact ih _

theorem feed_eq_rxAll (bs : List Byte) (s : State) : feed bs s = .next (rxAll bs s) := by
  induction bs generalizing s with
  | nil => rfl
  | cons b bs ih => rw [feed_cons_of_next bs (runningAByteIsReceive b s), ih, rxAll_cons]

@[simp] theorem feedEvents_nil (s : State) : feedEvents [] s = [] := rfl

theorem feedEvents_cons (b : Byte) (bs : List Byte) (s : State) :
    feedEvents (b :: bs) s = (receive Config.params b s).evPort.report.toList ++
      feedEvents bs (receive Config.params b s) :=
  feedEvents_cons_of_next bs (runningAByteIsReceive b s)

theorem feedOutcomes_cons (b : Byte) (bs : List Byte) (s : State) :
    feedOutcomes (b :: bs) s = (receive Config.params b s).outPort.report.toList ++
      feedOutcomes bs (receive Config.params b s) :=
  feedOutcomes_cons_of_next bs (runningAByteIsReceive b s)

theorem feedEvents_append (as bs : List Byte) (s : State) :
    feedEvents (as ++ bs) s = feedEvents as s ++ feedEvents bs (rxAll as s) := by
  induction as generalizing s with
  | nil => rfl
  | cons a as ih => rw [List.cons_append, feedEvents_cons, feedEvents_cons, ih, rxAll_cons, List.append_assoc]

/-! ## What one byte does -/

section
variable (b : Byte) (s : State)

/-- A byte completes a message, which is presented and counted, or reports `OUT_NONE` and presents nothing (R163, R164). -/
theorem receive_outputs :
    (∃ e, (receive Config.params b s).evPort = .reports e ∧
      (receive Config.params b s).outPort = .reports .outDispatched ∧
      (receive Config.params b s).evcnt = (s.evcnt + 1) % 2 ^ Config.params.evcntW) ∨
    ((receive Config.params b s).evPort = .quiet ∧ (receive Config.params b s).outPort = .reports .outNone ∧
      (receive Config.params b s).evcnt = s.evcnt) := by
  obtain ⟨n, rfl⟩ | ⟨n, rfl⟩ | ⟨k, ch, rfl⟩ | ⟨v, rfl⟩ := byte_cases b
  · rw [receive_rtByte]
    exact .inl ⟨_, rfl, rfl, rfl⟩
  · rw [receive_scByte]
    exact .inr ⟨rfl, rfl, rfl⟩
  · rw [receive_statusByte]
    exact .inr ⟨rfl, rfl, rfl⟩
  · rw [receive_dataOf]
    obtain ⟨-, h⟩ | ⟨k, -, -, h⟩ | ⟨k, -, -, h⟩ | ⟨k, -, -, h⟩ := dataByte_cases Config.params (dataOf v) s <;> rw [h]
    · exact .inr ⟨rfl, rfl, rfl⟩
    · exact .inr ⟨rfl, rfl, rfl⟩
    · exact .inl ⟨_, rfl, rfl, rfl⟩
    · exact .inl ⟨_, rfl, rfl, rfl⟩

/-- No byte writes the callback table (R16). -/
theorem receive_hreg : (receive Config.params b s).hreg = s.hreg := by
  obtain ⟨n, rfl⟩ | ⟨n, rfl⟩ | ⟨k, ch, rfl⟩ | ⟨v, rfl⟩ := byte_cases b
  · rw [receive_rtByte, dispatch_hreg]
  · rw [receive_scByte, recordStatus_hreg]
  · rw [receive_statusByte, recordStatus_hreg]
  · rw [receive_dataOf]
    obtain ⟨-, h⟩ | ⟨k, -, -, h⟩ | ⟨k, -, -, h⟩ | ⟨k, -, -, h⟩ := dataByte_cases Config.params (dataOf v) s <;> rw [h] <;> rfl

/-- No byte leads into `Error` (R98). -/
theorem receive_pstate_ne_error (h : s.pstate ≠ .error) : (receive Config.params b s).pstate ≠ .error := by
  obtain ⟨n, rfl⟩ | ⟨n, rfl⟩ | ⟨k, ch, rfl⟩ | ⟨v, rfl⟩ := byte_cases b
  · rwa [receive_rtByte, dispatch_pstate]
  · simp [receive_scByte]
  · simp [receive_statusByte]
  · have hdone (k : CvKind) : nextAfterComplete Config.params k ≠ .error := by
      rw [nextAfterComplete_params, afterMessage]
      split_ifs <;> simp
    rw [receive_dataOf]
    obtain ⟨-, e⟩ | ⟨k, -, -, e⟩ | ⟨k, -, -, e⟩ | ⟨k, -, -, e⟩ := dataByte_cases Config.params (dataOf v) s <;> rw [e]
    · exact h
    · simp
    · exact hdone k
    · exact hdone k

end

theorem rxAll_hreg (bs : List Byte) (s : State) : (rxAll bs s).hreg = s.hreg := by
  induction bs generalizing s with
  | nil => rfl
  | cons b bs ih => rw [rxAll_cons, ih, receive_hreg]

/-- The counter stays a number of `EVCNT_W` bits over a stream (R15). -/
theorem rxAll_counterInRange (bs : List Byte) {s : State} (h : counterInRange s) : counterInRange (rxAll bs s) := by
  induction bs generalizing s with
  | nil => exact h
  | cons b bs ih =>
    refine ih ?_
    obtain ⟨_, -, -, hcnt⟩ | ⟨-, -, hcnt⟩ := receive_outputs b s
    · exact counterInRange_dispatched hcnt
    · rwa [counterInRange, hcnt]

/-- The counter counts the events of a stream modulo its width (R163). -/
theorem rxAll_evcnt_mod (bs : List Byte) (s : State) :
    (rxAll bs s).evcnt % 2 ^ Config.params.evcntW =
      (s.evcnt + (feedEvents bs s).length) % 2 ^ Config.params.evcntW := by
  induction bs generalizing s with
  | nil => rfl
  | cons b bs ih =>
    rw [rxAll_cons, ih, feedEvents_cons]
    obtain ⟨e, hev, -, hcnt⟩ | ⟨hev, -, hcnt⟩ := receive_outputs b s
    · rw [hev, hcnt, Nat.mod_add_mod]
      simp [Nat.add_assoc, Nat.add_comm]
    · simp [hev, hcnt]

theorem rxAll_evcnt (bs : List Byte) {s : State} (h : counterInRange s) :
    (rxAll bs s).evcnt = (s.evcnt + (feedEvents bs s).length) % 2 ^ Config.params.evcntW := by
  rw [← rxAll_evcnt_mod, Nat.mod_eq_of_lt (rxAll_counterInRange bs h)]

/-! ## Data bytes with no message in progress -/

/-- A data byte finds no message in progress, or one of the two unreachable states (R130, R131, R150). -/
theorem dataByte_of_stray (p : Params) (b : Byte) {s : State}
    (hs : s.pstate = .waitingForStatus ∨ s.pstate = .error ∨ ∃ k, oneDataByte k = true ∧ s.pstate = .awaitSecond k) :
    dataByte p b s = noMessage s := by
  obtain h | h | ⟨k, hk, h⟩ := hs
  · simp [dataByte, h]
  · simp [dataByte, h]
  · simp [dataByte, h, hk]

/-- While no message is in progress data bytes change nothing but the outputs (R130). -/
theorem rxAll_data_of_waiting (vs : List (BitVec 7)) {s : State} (hs : s.pstate = .waitingForStatus) :
    feedEvents (vs.map dataOf) s = [] ∧ (rxAll (vs.map dataOf) s).pstate = .waitingForStatus ∧
    (rxAll (vs.map dataOf) s).status = s.status ∧ (rxAll (vs.map dataOf) s).data1 = s.data1 ∧
    (rxAll (vs.map dataOf) s).data2 = s.data2 ∧ (rxAll (vs.map dataOf) s).evcnt = s.evcnt := by
  induction vs generalizing s with
  | nil => exact ⟨rfl, hs, rfl, rfl, rfl, rfl⟩
  | cons v vs ih =>
    have hv : receive Config.params (dataOf v) s = noMessage s := by
      rw [receive_dataOf, dataByte_of_stray _ _ (.inl hs)]
    simpa [feedEvents_cons, hv] using ih (s := noMessage s) hs

/-! ## Whole messages -/

/-- The event of a message, marked as the table stands when it completes (R160). -/
def messageEvent (k : CvKind) (ch : BitVec 4) (d1 d2 : BitVec 7) (mark : Bool) : Event :=
  { kind := .cv k, channel := ch, data1 := dataOf d1, data2 := if oneDataByte k then 0#8 else dataOf d2
    registered := mark }

section
variable {k : CvKind} (d1 d2 : BitVec 7) {s : State} (hs : s.pstate = .awaitFirst k)
include hs

/-- The data bytes of a message whose first is awaited complete it with the recorded channel (R147, R148). -/
theorem rxAll_run : ∃ u, u.status = s.status ∧ u.hreg = s.hreg ∧
    rxAll (runBytes k d1 d2) s =
      complete Config.params k (dataOf d1) (if oneDataByte k then 0#8 else dataOf d2) u ∧
    feedEvents (runBytes k d1 d2) s =
      (complete Config.params k (dataOf d1) (if oneDataByte k then 0#8 else dataOf d2) u).evPort.report.toList := by
  cases hk : oneDataByte k
  · have h1 : receive Config.params (dataOf d1) s = storeFirst k (dataOf d1) s := by
      rw [receive_dataOf, dataByte_of_firstOfTwo _ _ hk hs]
    have h2 : receive Config.params (dataOf d2) (storeFirst k (dataOf d1) s) =
        complete Config.params k (dataOf d1) (dataOf d2) (storeFirst k (dataOf d1) s) := by
      rw [receive_dataOf, dataByte_of_secondOfTwo _ _ hk (storeFirst_pstate ..), storeFirst_data1]
    exact ⟨storeFirst k (dataOf d1) s, rfl, rfl, by simp [runBytes, hk, h1, h2],
      by simp [runBytes, hk, feedEvents_cons, h1, h2]⟩
  · have h1 : receive Config.params (dataOf d1) s = complete Config.params k (dataOf d1) 0#8 s := by
      rw [receive_dataOf, dataByte_of_onlyOne _ _ hk hs]
    exact ⟨s, rfl, rfl, by simp [runBytes, hk, h1], by simp [runBytes, hk, feedEvents_cons, h1]⟩

theorem feedEvents_run :
    feedEvents (runBytes k d1 d2) s =
      [messageEvent k (channelOf s.status) d1 d2 (s.hreg.getLsbD (cvCode k).toNat)] := by
  obtain ⟨u, hstatus, hhreg, -, hevents⟩ := rxAll_run d1 d2 hs
  rw [hevents, complete_evPort, registered_cv, hstatus, hhreg]
  rfl

theorem rxAll_run_pstate : (rxAll (runBytes k d1 d2) s).pstate = afterMessage k := by
  obtain ⟨u, -, -, hall, -⟩ := rxAll_run d1 d2 hs
  rw [hall, complete_pstate, nextAfterComplete_params]

theorem rxAll_run_status : (rxAll (runBytes k d1 d2) s).status = s.status := by
  obtain ⟨u, hstatus, -, hall, -⟩ := rxAll_run d1 d2 hs
  rw [hall, complete_status, hstatus]

end

section
variable (k : CvKind) (ch : BitVec 4) (d1 d2 : BitVec 7) (s : State)

/-- A whole message is dispatched from any state (R147, R148). -/
theorem feedEvents_message :
    feedEvents (messageBytes k ch d1 d2) s = [messageEvent k ch d1 d2 (s.hreg.getLsbD (cvCode k).toNat)] := by
  rw [messageBytes, feedEvents_cons, receive_statusByte, feedEvents_run d1 d2 (recordStatus_pstate ..),
    recordStatus_status, channelOf_statusByte]
  rfl

theorem rxAll_message_pstate : (rxAll (messageBytes k ch d1 d2) s).pstate = afterMessage k := by
  rw [messageBytes, rxAll_cons, receive_statusByte, rxAll_run_pstate d1 d2 (recordStatus_pstate ..)]

theorem rxAll_message_status : (rxAll (messageBytes k ch d1 d2) s).status = statusByte k ch := by
  rw [messageBytes, rxAll_cons, receive_statusByte, rxAll_run_status d1 d2 (recordStatus_pstate ..), recordStatus_status]

theorem runBytes_eq_map : runBytes k d1 d2 = (if oneDataByte k then [d1] else [d1, d2]).map dataOf := by
  unfold runBytes
  split_ifs <;> rfl

end

/-! ## Real-time bytes -/

theorem isRealTime_rtByte (n : BitVec 3) : isRealTime (rtByte n) = true := by
  revert n
  decide

theorem isRealTime_scByte (n : BitVec 3) : isRealTime (scByte n) = false := by
  revert n
  decide

theorem isRealTime_statusByte (k : CvKind) (ch : BitVec 4) : isRealTime (statusByte k ch) = false := by
  revert ch
  cases k <;> decide

theorem isRealTime_dataOf (v : BitVec 7) : isRealTime (dataOf v) = false := by
  revert v
  decide

theorem isRealTimeEvent_iff (e : Event) : isRealTimeEvent e = true ↔ ∃ n, e.kind = .rt n := by
  unfold isRealTimeEvent
  cases e.kind <;> simp

/-- The fields of the decoder that a real-time byte leaves alone (R110). -/
def sameDecoding (s u : State) : Prop :=
  s.pstate = u.pstate ∧ s.status = u.status ∧ s.data1 = u.data1 ∧ s.data2 = u.data2 ∧ s.hreg = u.hreg

theorem sameDecoding_refl (s : State) : sameDecoding s s := ⟨rfl, rfl, rfl, rfl, rfl⟩

section
variable {s u : State} (h : sameDecoding s u)
include h

theorem registered_congr (k : EvKind) : registered s k = registered u k := by
  obtain ⟨-, -, -, -, hhreg⟩ := h
  rw [registered, hhreg, registered]

/-- What completes a message reads these fields alone. -/
theorem complete_congr (k : CvKind) (d1 d2 : Byte) :
    sameDecoding (complete Config.params k d1 d2 s) (complete Config.params k d1 d2 u) ∧
    (complete Config.params k d1 d2 s).evPort = (complete Config.params k d1 d2 u).evPort := by
  have hmark := registered_congr h (.cv k)
  obtain ⟨-, hstatus, -, -, hhreg⟩ := h
  refine ⟨⟨rfl, hstatus, rfl, rfl, hhreg⟩, ?_⟩
  rw [complete_evPort, complete_evPort, hstatus, hmark]

/-- What a data byte does, and presents, depends on these fields alone. -/
theorem dataByte_congr (b : Byte) :
    sameDecoding (dataByte Config.params b s) (dataByte Config.params b u) ∧
    (dataByte Config.params b s).evPort = (dataByte Config.params b u).evPort := by
  have ⟨hpstate, hstatus, hdata1, hdata2, hhreg⟩ := h
  obtain ⟨hs, e⟩ | ⟨k, hk, hs, e⟩ | ⟨k, hk, hs, e⟩ | ⟨k, hk, hs, e⟩ := dataByte_cases Config.params b s <;> rw [e] <;>
    rw [hpstate] at hs
  · rw [dataByte_of_stray _ _ hs]
    exact ⟨h, rfl⟩
  · rw [dataByte_of_firstOfTwo _ _ hk hs]
    exact ⟨⟨rfl, hstatus, rfl, hdata2, hhreg⟩, rfl⟩
  · rw [dataByte_of_onlyOne _ _ hk hs]
    exact complete_congr h k b 0#8
  · rw [dataByte_of_secondOfTwo _ _ hk hs, ← hdata1]
    exact complete_congr h k s.data1 b

/-- What a byte does, and presents, depends on these fields alone. -/
theorem receive_congr (b : Byte) :
    sameDecoding (receive Config.params b s) (receive Config.params b u) ∧
    (receive Config.params b s).evPort = (receive Config.params b u).evPort := by
  obtain ⟨n, rfl⟩ | ⟨n, rfl⟩ | ⟨k, ch, rfl⟩ | ⟨v, rfl⟩ := byte_cases b
  · rw [receive_rtByte, receive_rtByte, dispatch_evPort, dispatch_evPort, registered_congr h]
    exact ⟨h, rfl⟩
  · rw [receive_scByte, receive_scByte]
    obtain ⟨-, -, -, -, hhreg⟩ := h
    exact ⟨⟨rfl, rfl, rfl, rfl, hhreg⟩, rfl⟩
  · rw [receive_statusByte, receive_statusByte]
    obtain ⟨-, -, -, -, hhreg⟩ := h
    exact ⟨⟨rfl, rfl, rfl, rfl, hhreg⟩, rfl⟩
  · rw [receive_dataOf, receive_dataOf]
    exact dataByte_congr h _

end

/-- A real-time byte presents a real-time event and leaves the rest of the decoder (R110). -/
theorem receive_of_realTime {b : Byte} (hb : isRealTime b = true) (s : State) :
    ∃ n e, b = rtByte n ∧ e.kind = .rt n ∧ (receive Config.params b s).evPort.report.toList = [e] ∧
      sameDecoding (receive Config.params b s) s := by
  obtain ⟨n, rfl⟩ | ⟨n, rfl⟩ | ⟨k, ch, rfl⟩ | ⟨v, rfl⟩ := byte_cases b
  · rw [receive_rtByte]
    exact ⟨n, _, rfl, rfl, rfl, sameDecoding_refl s⟩
  · simp [isRealTime_scByte] at hb
  · simp [isRealTime_statusByte] at hb
  · simp [isRealTime_dataOf] at hb

/-- No other byte presents a real-time event. -/
theorem events_of_not_realTime {b : Byte} (hb : isRealTime b = false) (s : State) :
    ∀ e ∈ (receive Config.params b s).evPort.report.toList, isRealTimeEvent e = false := by
  obtain ⟨n, rfl⟩ | ⟨n, rfl⟩ | ⟨k, ch, rfl⟩ | ⟨v, rfl⟩ := byte_cases b
  · simp [isRealTime_rtByte] at hb
  · simp [receive_scByte]
  · simp [receive_statusByte]
  · rw [receive_dataOf]
    obtain ⟨-, h⟩ | ⟨k, -, -, h⟩ | ⟨k, -, -, h⟩ | ⟨k, -, -, h⟩ := dataByte_cases Config.params (dataOf v) s <;>
      rw [h] <;> simp [isRealTimeEvent]

/-- Two streams that differ in real-time bytes alone lead to the same decoding, and present the same other events. -/
theorem realTime_removed (bs : List Byte) {s u : State} (h : sameDecoding s u) :
    sameDecoding (rxAll bs s) (rxAll (bs.filter fun b => !isRealTime b) u) ∧
    (feedEvents bs s).filter (fun e => !isRealTimeEvent e) = feedEvents (bs.filter fun b => !isRealTime b) u ∧
    (feedEvents bs s).length = (feedEvents (bs.filter fun b => !isRealTime b) u).length + bs.countP isRealTime := by
  induction bs generalizing s u with
  | nil => exact ⟨h, rfl, rfl⟩
  | cons b bs ih =>
    cases hb : isRealTime b
    · obtain ⟨hnext, hport⟩ := receive_congr h b
      obtain ⟨hdec, hevents, hlen⟩ := ih hnext
      have hkept : (receive Config.params b u).evPort.report.toList.filter (fun e => !isRealTimeEvent e) =
          (receive Config.params b u).evPort.report.toList :=
        List.filter_eq_self.2 fun e he => by simp [events_of_not_realTime hb u e he]
      simp only [rxAll_cons, feedEvents_cons, hb, Bool.not_false, List.filter_cons_of_pos, List.filter_append,
        List.length_append, hport, hkept, hevents, hlen, List.countP_cons_of_neg, Bool.false_eq_true, not_false_eq_true]
      exact ⟨hdec, trivial, by omega⟩
    · obtain ⟨n, e, -, hkind, hreport, hsame⟩ := receive_of_realTime hb s
      have hrt : isRealTimeEvent e = true := (isRealTimeEvent_iff e).2 ⟨n, hkind⟩
      have ⟨hpstate, hstatus, hdata1, hdata2, hhreg⟩ := h
      obtain ⟨gpstate, gstatus, gdata1, gdata2, ghreg⟩ := hsame
      obtain ⟨hdec, hevents, hlen⟩ := ih (s := receive Config.params b s) (u := u)
        ⟨gpstate.trans hpstate, gstatus.trans hstatus, gdata1.trans hdata1, gdata2.trans hdata2, ghreg.trans hhreg⟩
      simp only [rxAll_cons, feedEvents_cons, hreport, hb, hrt, Bool.not_true, List.filter_cons_of_neg, Bool.false_eq_true,
        not_false_eq_true, List.cons_append, List.nil_append, hevents, List.length_cons, hlen, List.countP_cons_of_pos]
      exact ⟨hdec, trivial, by omega⟩

/-! ## `Error` -/

/-- In `Error` data bytes are discarded and real-time bytes dispatched, and the state and what it records stay (R99,
R119 (c), R131). -/
theorem rxAll_in_error (bs : List Byte) {s : State} (hs : s.pstate = .error)
    (hbs : ∀ b ∈ bs, b.toNat ≤ 0x7F ∨ 0xF8 ≤ b.toNat) :
    (rxAll bs s).pstate = .error ∧ (rxAll bs s).status = s.status ∧
    (feedEvents bs s).map Event.kind = (bs.filter isRealTime).map (fun b => .rt (b.extractLsb' 0 3)) := by
  induction bs generalizing s with
  | nil => exact ⟨hs, rfl, rfl⟩
  | cons b bs ih =>
    have hb := hbs b List.mem_cons_self
    have hrest : ∀ b ∈ bs, b.toNat ≤ 0x7F ∨ 0xF8 ≤ b.toNat := fun c hc => hbs c (List.mem_cons_of_mem b hc)
    obtain ⟨n, rfl⟩ | ⟨n, rfl⟩ | ⟨k, ch, rfl⟩ | ⟨v, rfl⟩ := byte_cases b
    · have hlow : ∀ n, (rtByte n).extractLsb' 0 3 = n := by decide
      rw [rxAll_cons, feedEvents_cons, receive_rtByte]
      obtain ⟨hpstate, hstatus, hkinds⟩ := ih (s := dispatch Config.params (.rt n) 0#4 0#8 0#8 s) hs hrest
      exact ⟨hpstate, hstatus, by simp [hkinds, isRealTime_rtByte, hlow]⟩
    · have := scByte_range n
      omega
    · have := statusByte_range k ch
      omega
    · rw [rxAll_cons, feedEvents_cons, receive_dataOf, dataByte_of_stray _ _ (.inr (.inl hs))]
      obtain ⟨hpstate, hstatus, hkinds⟩ := ih (s := noMessage s) hs hrest
      exact ⟨hpstate, hstatus, by simp [hkinds, isRealTime_dataOf]⟩

/-! ## Messages cut short -/

/-- A message cut before its completing byte presents nothing (R92). -/
theorem feedEvents_half {k : CvKind} (ch : BitVec 4) {half : List (BitVec 7)}
    (hhalf : half.length < (runBytes k 0#7 0#7).length) (s : State) :
    feedEvents (statusByte k ch :: half.map dataOf) s = [] := by
  rw [feedEvents_cons, receive_statusByte]
  match half with
  | [] => rfl
  | [v] =>
    have hk : oneDataByte k = false := by
      cases hk : oneDataByte k
      · rfl
      · simp [runBytes, hk] at hhalf
    simp [feedEvents_cons, receive_dataOf, dataByte_of_firstOfTwo _ _ hk (recordStatus_pstate ..)]
  | _ :: _ :: _ =>
    unfold runBytes at hhalf
    split_ifs at hhalf <;> simp at hhalf

/-- System-common bytes present nothing (R100). -/
theorem feedEvents_systemCommon (ns : List (BitVec 3)) (s : State) : feedEvents (ns.map scByte) s = [] := by
  induction ns generalizing s with
  | nil => rfl
  | cons n ns ih => rw [List.map_cons, feedEvents_cons, receive_scByte, ih]; rfl

/-! ## The statements -/

/-- Settles O21: the four states are those in which a data byte finds nothing in progress. -/
theorem strayDataByteIsDiscarded : Obligations.StrayDataByteIsDiscarded := by
  intro v s hs
  rw [exec_data, dataByte_of_stray]
  · rfl
  · obtain h | h | h | h := hs
    · exact .inl h
    · exact .inr (.inl h)
    · exact .inr (.inr ⟨_, rfl, h⟩)
    · exact .inr (.inr ⟨_, rfl, h⟩)

/-- Settles O25: `realTime_removed` from one state; the count of events, modulo the width, differs by the real-time ones. -/
theorem realTimeBytesAreTransparent : Obligations.RealTimeBytesAreTransparent := by
  intro bs s hrange
  obtain ⟨⟨hpstate, hstatus, hdata1, hdata2, hhreg⟩, hevents, hlen⟩ := realTime_removed bs (sameDecoding_refl s)
  refine ⟨_, _, feed_eq_rxAll _ _, feed_eq_rxAll _ _, hpstate, hstatus, hdata1, hdata2, hhreg, hevents, ?_⟩
  rw [rxAll_evcnt _ hrange, rxAll_evcnt _ hrange, hlen, Nat.mod_add_mod, Nat.add_assoc]

/-- One outcome is reported for each byte, and `OUT_DISPATCHED` with each event (R164). -/
theorem feedOutcomes_count (bs : List Byte) (s : State) :
    (feedEvents bs s).length = (feedOutcomes bs s).count .outDispatched ∧ (feedOutcomes bs s).length = bs.length := by
  induction bs generalizing s with
  | nil => exact ⟨rfl, rfl⟩
  | cons b bs ih =>
    obtain ⟨hcount, hlen⟩ := ih (receive Config.params b s)
    rw [feedEvents_cons, feedOutcomes_cons]
    obtain ⟨e, hev, hout, -⟩ | ⟨hev, hout, -⟩ := receive_outputs b s <;> simp [hev, hout, hcount, hlen]

theorem Port.valid_of_not_reports {α : Type} {x : Port α} (h : ∀ a, x ≠ .reports a) : x.valid = false := by
  cases x with
  | cleared => rfl
  | quiet => rfl
  | reports a => exact absurd rfl (h a)

/-- Settles O26: the counter counts events, events go with `OUT_DISPATCHED`, and the lines are those of the ports. -/
theorem eventCounterCountsDispatches : Obligations.EventCounterCountsDispatches := by
  refine ⟨fun bs s hrange => ?_, ⟨rfl, rfl, rfl, rfl⟩, fun s => ⟨fun o h => ?_, fun e h => ?_, fun o h => ?_, fun h => ?_,
    fun h => ?_, fun h => ?_⟩⟩
  · exact ⟨_, feed_eq_rxAll bs s, rxAll_evcnt bs hrange, feedOutcomes_count bs s⟩
  · simp [State.outValid, State.outCode, h]
  · simp [State.evValid, State.evKind, State.evChannel, State.evData1, State.evData2, State.evRegistered, h]
  · simp [State.regStatusValid, State.regStatus, h]
  · exact Port.valid_of_not_reports h
  · exact Port.valid_of_not_reports h
  · exact Port.valid_of_not_reports h

/-- Settles O27: byte by byte, by `receive_outputs` and `receive_pstate_ne_error`. -/
theorem noStreamRaisesAnError : Obligations.NoStreamRaisesAnError := by
  intro bs
  induction bs with
  | nil => exact fun s => ⟨by simp [feedOutcomes], s, rfl, id⟩
  | cons b bs ih =>
    intro s
    obtain ⟨houtcomes, t, ht, hnot⟩ := ih (receive Config.params b s)
    refine ⟨fun o ho => ?_, t, ?_, fun h => hnot (receive_pstate_ne_error b s h)⟩
    · rw [feedOutcomes_cons, List.mem_append] at ho
      obtain ho | ho := ho
      · obtain ⟨e, -, hout, -⟩ | ⟨-, hout, -⟩ := receive_outputs b s
        · exact .inr (by simpa [hout] using ho)
        · exact .inl (by simpa [hout] using ho)
      · exact houtcomes o ho
    · rw [feed_cons_of_next bs (runningAByteIsReceive b s), ht]

/-- Settles O28: the stream stays in `Error` and presents real-time events alone; a status byte, from there as from any
state, begins anew. -/
theorem errorIsLeftByAStatusByte : Obligations.ErrorIsLeftByAStatusByte := by
  intro bs k ch d1 d2 n s hs hbs
  obtain ⟨hpstate, hstatus, hkinds⟩ := rxAll_in_error bs hs hbs
  refine ⟨⟨_, feed_eq_rxAll bs s, hpstate, hstatus, rxAll_hreg bs s⟩, hkinds, ⟨_, feed_eq_rxAll _ s, ?_⟩,
    ⟨_, feed_eq_rxAll _ s, ?_⟩, ?_⟩
  · rw [rxAll_append, rxAll_cons, rxAll_nil, receive_scByte]
    exact ⟨rfl, rfl, rfl, rfl⟩
  · rw [rxAll_append]
    exact ⟨rxAll_message_pstate .., rxAll_message_status ..⟩
  · have hall : ∀ e ∈ feedEvents bs s, isRealTimeEvent e = true := by
      intro e he
      have hkind : e.kind ∈ (bs.filter isRealTime).map (fun b => EvKind.rt (b.extractLsb' 0 3)) :=
        hkinds ▸ List.mem_map_of_mem he
      obtain ⟨b, -, hb⟩ := List.mem_map.1 hkind
      exact (isRealTimeEvent_iff e).2 ⟨_, hb.symm⟩
    have hnone : (feedEvents bs s).filter (fun e => !isRealTimeEvent e) = [] :=
      List.filter_eq_nil_iff.2 fun e he => by simp [hall e he]
    rw [feedEvents_append, feedEvents_message, rxAll_hreg, List.filter_append, hnone]
    rfl

/-- Settles O29: each status byte records itself whatever was in progress; over a stream the half message and the cuts
present nothing and leave the table, and the whole message is dispatched from any state. -/
theorem statusByteDropsHalfAMessage : Obligations.StatusByteDropsHalfAMessage := by
  refine ⟨fun k j ch n s _ => ⟨⟨_, runFrame_statusByte j ch s, rfl, rfl, rfl, rfl, rfl, rfl⟩,
    ⟨_, runFrame_scByte n s, rfl, rfl, rfl, rfl, rfl, rfl⟩⟩, fun k j ch ch' half cut e1 e2 s hhalf => ?_⟩
  rw [feedEvents_append, feedEvents_append, feedEvents_half ch hhalf, feedEvents_systemCommon, feedEvents_message,
    rxAll_hreg]
  rfl

/-- Settles O30: after the byte no message is in progress, and data bytes are discarded. -/
theorem systemCommonDiscardsData : Obligations.SystemCommonDiscardsData := by
  intro n vs s
  obtain ⟨hevents, hpstate, hstatus, hdata1, hdata2, hcnt⟩ :=
    rxAll_data_of_waiting vs (s := recordStatus (scByte n) .waitingForStatus s) rfl
  refine ⟨?_, _, feed_eq_rxAll _ s, ?_⟩
  · rw [feedEvents_cons, receive_scByte, hevents]
    rfl
  · rw [rxAll_cons, receive_scByte]
    exact ⟨hpstate, hstatus, hdata1, hdata2, hcnt⟩

/-- Settles O31: after the message the state is the one `RS_MODE` chooses; there the data bytes form a message or are
discarded. -/
theorem runningStatusByMode : Obligations.RunningStatusByMode := by
  intro k ch d1 d2 e1 e2 s
  have hafter := rxAll_message_pstate k ch d1 d2 s
  have hstatus := rxAll_message_status k ch d1 d2 s
  have hhreg := rxAll_hreg (messageBytes k ch d1 d2) s
  rw [feedEvents_append, feedEvents_message]
  by_cases hmode : Config.params.rsMode = .running
  · rw [afterMessage, if_pos hmode] at hafter
    rw [if_pos hmode, feedEvents_run e1 e2 hafter, hstatus, hhreg, channelOf_statusByte]
    rfl
  · rw [afterMessage, if_neg hmode] at hafter
    rw [if_neg hmode, runBytes_eq_map, (rxAll_data_of_waiting _ hafter).1]
    rfl

/-- What a registration between `before` and `after` needs of the state it finds: the message goes on from there as from
the state it leaves, with the table as it leaves it. -/
def MessageGoesOn (k : CvKind) (ch : BitVec 4) (d1 d2 : BitVec 7) (after : List Byte) (s : State) : Prop :=
  ∀ u : State, u.pstate = s.pstate → u.status = s.status → u.data1 = s.data1 →
    (rxAll after u).pstate = afterMessage k ∧
    feedEvents after u = [messageEvent k ch d1 d2 (registered u (.cv k))]

/-- A message goes on from each of its splits before the completing byte. -/
theorem messageGoesOn_of_split {k : CvKind} {ch : BitVec 4} {d1 d2 : BitVec 7} {before after : List Byte}
    (hsplit : before ++ after = messageBytes k ch d1 d2) (hafter : after ≠ []) (s : State) :
    feedEvents before s = [] ∧ MessageGoesOn k ch d1 d2 after (rxAll before s) := by
  match before with
  | [] =>
    obtain rfl : after = messageBytes k ch d1 d2 := hsplit
    refine ⟨rfl, fun u _ _ _ => ⟨rxAll_message_pstate .., ?_⟩⟩
    rw [feedEvents_message, registered_cv]
  | [b] =>
    obtain ⟨rfl, rfl⟩ : b = statusByte k ch ∧ after = runBytes k d1 d2 := List.cons.inj hsplit
    rw [rxAll_cons, rxAll_nil, feedEvents_cons, receive_statusByte]
    refine ⟨rfl, fun u hpstate hstatus _ => ⟨rxAll_run_pstate d1 d2 hpstate, ?_⟩⟩
    rw [feedEvents_run d1 d2 hpstate, registered_cv, hstatus, recordStatus_status, channelOf_statusByte]
  | b :: b' :: rest =>
    obtain ⟨rfl, htail⟩ : b = statusByte k ch ∧ b' :: rest ++ after = runBytes k d1 d2 := List.cons.inj hsplit
    cases hk : oneDataByte k
    · obtain ⟨rfl, hlast⟩ : b' = dataOf d1 ∧ rest ++ after = [dataOf d2] := by simpa [runBytes, hk] using htail
      obtain ⟨rfl, rfl⟩ : rest = [] ∧ after = [dataOf d2] := by
        simpa [List.append_eq_singleton_iff, hafter] using hlast
      have hfirst : receive Config.params (dataOf d1) (recordStatus (statusByte k ch) (.awaitFirst k) s) =
          halfway k ch d1 s := by
        rw [receive_dataOf, dataByte_of_firstOfTwo _ _ hk (recordStatus_pstate ..), halfway]
      simp only [rxAll_cons, rxAll_nil, feedEvents_cons, receive_statusByte, hfirst]
      refine ⟨rfl, fun u hpstate hstatus hdata1 => ?_⟩
      rw [rxAll_cons, rxAll_nil, feedEvents_cons, receive_dataOf, dataByte_of_secondOfTwo _ _ hk hpstate, hdata1]
      refine ⟨nextAfterComplete_params k, ?_⟩
      rw [complete_evPort, hstatus]
      simp [messageEvent, hk, halfway, channelOf_statusByte]
    · obtain ⟨-, -, hnil⟩ : b' = dataOf d1 ∧ rest = [] ∧ after = [] := by simpa [runBytes, hk] using htail
      exact absurd hnil hafter

/-- Settles O32: a registration leaves what the message in progress needs, and the event is marked with the slot as it was
written. -/
theorem registrationInsideAMessage : Obligations.RegistrationInsideAMessage := by
  intro k ch d1 d2 en before after s hsplit hafter
  obtain ⟨hquiet, hgoes⟩ := messageGoesOn_of_split hsplit hafter s
  obtain ⟨hpstate, hevents⟩ := hgoes (slotWritten (.cv k) en (rxAll before s)) rfl rfl rfl
  rw [registered_slotWritten] at hevents
  exact ⟨_, _, _, feed_eq_rxAll before s, runFrame_register (.cv k) en _, rfl, rfl, rfl, feed_eq_rxAll after _, hpstate,
    hquiet, hevents⟩

end Sys2Proof.Machine

/-!
PROOFS. The two blocks. An instruction is for the block whose port its word travels on. For the decoder it is `receive` of a
byte or `registerSlot` of a code, for the timer programmer `writeChannelOp` or `emitControlWord`, the same operation in
every state; what each of them leaves alone, and what each of them depends on, gives the statements.
-/

namespace Sys2Proof.Machine

open Sys2Proof.Claims

/-! ## The operation of an instruction, by its port -/

section
variable {i : Instr}

/-- The instructions of the received bytes are well formed whatever their operands. -/
theorem wfWith_of_encode_rx {b : Byte} (p : Params) (h : encode i = .rx b) : i.wfWith p = true := by
  cases i with
  | register | unregister | writeChannel | controlWord => cases h
  | _ => rfl

/-- An instruction that is a received byte is one of the four classes, as its byte is. -/
theorem rxInstr_cases {b : Byte} (h : encode i = .rx b) :
    (∃ n, i = decodeRealTime n ∧ b = rtByte n) ∨ (∃ n, i = decodeSystemCommon n ∧ b = scByte n) ∨
    (∃ k ch, i = cvInstr k ch ∧ b = statusByte k ch) ∨ ∃ v, i = .data v ∧ b = dataOf v := by
  have hrow : CodeRow Config.params (encode i) i := codeRow_of_wf (wfWith_of_encode_rx _ h)
  rw [h] at hrow
  cases hrow with
  | realTime n => exact .inl ⟨n, rfl, rfl⟩
  | systemCommon n => exact .inr (.inl ⟨n, rfl, rfl⟩)
  | channelVoice k ch => exact .inr (.inr (.inl ⟨k, ch, rfl, rfl⟩))
  | data v => exact .inr (.inr (.inr ⟨v, rfl, rfl⟩))

theorem exec_of_encode_rx {b : Byte} (h : encode i = .rx b) (s : State) :
    exec i s = .next (receive Config.params b s) := by
  have hrow : CodeRow Config.params (encode i) i := codeRow_of_wf (wfWith_of_encode_rx _ h)
  rw [h] at hrow
  rw [← runFrame_of_decode hrow.decode_eq, runningAByteIsReceive]

theorem exec_of_encode_reg {w : BitVec 6} (h : encode i = .reg w) :
    ∃ c en, (∀ s, exec i s = .next (registerSlot c en s)) ∧
      (kindInRange c = false ∨ ∃ k, i = .register k ∨ i = .unregister k) := by
  cases i with
  | register k => exact ⟨k, true, exec_register k, .inr ⟨k, .inl rfl⟩⟩
  | unregister k => exact ⟨k, false, exec_unregister k, .inr ⟨k, .inr rfl⟩⟩
  | registerBadKind7 en => exact ⟨_, _, exec_registerBadKind7 en, .inl kindInRange_seven⟩
  | registerBadKind24To31 en low => exact ⟨_, _, exec_registerBadKind24To31 en low, .inl (kindInRange_topCodes low)⟩
  | _ => cases h

theorem exec_of_encode_cmd {w : BitVec 18} (h : encode i = .cmd w) :
    ∃ c l m, (∀ s, exec i s = .next (writeChannelOp Config.params c l m s)) ∧ (c = 3#2 ∨ i = .writeChannel c l m) := by
  cases i with
  | writeChannel c l m => exact ⟨c, l, m, exec_writeChannel c l m, .inr rfl⟩
  | writeChannelInvalid l m => exact ⟨3#2, l, m, exec_writeChannelInvalid l m, .inl rfl⟩
  | _ => cases h

theorem exec_of_encode_bus {b : Byte} (h : encode i = .bus b) :
    ∀ s, exec i s = .next (emitControlWord Config.params b s) := by
  cases i with
  | controlWord c am mode bcd =>
    obtain rfl : controlByte c am mode bcd = b := Frame.bus.inj h
    exact fun _ => rfl
  | _ => cases h

theorem eq_reset_of_encode_rst (h : encode i = .rst) : i = .reset := by
  cases i with
  | reset => rfl
  | _ => cases h

end

/-! ## What the operations leave alone -/

/-- A byte touches neither the timer programmer, nor the registration port, the companion and the schedule (R50). -/
theorem receive_frame (b : Byte) (s : State) :
    sameTimer (receive Config.params b s) s ∧ (receive Config.params b s).regPort = s.regPort ∧
    (receive Config.params b s).voice = s.voice ∧ (receive Config.params b s).inputs = s.inputs := by
  obtain ⟨n, rfl⟩ | ⟨n, rfl⟩ | ⟨k, ch, rfl⟩ | ⟨v, rfl⟩ := byte_cases b
  · rw [receive_rtByte]
    exact ⟨sameTimer_refl s, rfl, rfl, rfl⟩
  · rw [receive_scByte]
    exact ⟨sameTimer_refl s, rfl, rfl, rfl⟩
  · rw [receive_statusByte]
    exact ⟨sameTimer_refl s, rfl, rfl, rfl⟩
  · rw [receive_dataOf]
    obtain ⟨-, h⟩ | ⟨k, -, -, h⟩ | ⟨k, -, -, h⟩ | ⟨k, -, -, h⟩ := dataByte_cases Config.params (dataOf v) s <;> rw [h] <;>
      exact ⟨sameTimer_refl s, rfl, rfl, rfl⟩

/-- Data bytes leave `STATUS` alone (R12). -/
theorem dataByte_status (p : Params) (b : Byte) (s : State) : (dataByte p b s).status = s.status := by
  obtain ⟨-, h⟩ | ⟨k, -, -, h⟩ | ⟨k, -, -, h⟩ | ⟨k, -, -, h⟩ := dataByte_cases p b s <;> rw [h] <;> rfl

/-- A registration writes the table and its status and nothing else (R165, R166). -/
theorem registerSlot_frame_decoder (c : BitVec 5) (en : Bool) (s : State) :
    (registerSlot c en s).status = s.status ∧ (registerSlot c en s).evcnt = s.evcnt := by
  obtain ⟨k, -, h⟩ | ⟨-, h⟩ := registerSlot_cases c en s <;> rw [h] <;> exact ⟨rfl, rfl⟩

theorem emitControlWord_cache (p : Params) (b : Byte) (s : State) : (emitControlWord p b s).cache = s.cache := by
  obtain h | ⟨x, ops, w, n, -, -, -, -, h⟩ := emitControlWord_cases p b s <;> simp [h]

/-! ## What the operations depend on -/

section
variable {s u : State}

theorem receive_sameDecoder (h : sameDecoder s u) (b : Byte) :
    sameDecoder (receive Config.params b s) (receive Config.params b u) := by
  obtain ⟨hpstate, hstatus, hdata1, hdata2, hcnt, hhreg, -, -, hregPort⟩ := h
  obtain ⟨⟨gpstate, gstatus, gdata1, gdata2, ghreg⟩, gev⟩ := receive_congr ⟨hpstate, hstatus, hdata1, hdata2, hhreg⟩ b
  obtain ⟨-, gregPort, -⟩ := receive_frame b s
  obtain ⟨-, gregPort', -⟩ := receive_frame b u
  have gout : (receive Config.params b s).outPort = (receive Config.params b u).outPort ∧
      (receive Config.params b s).evcnt = (receive Config.params b u).evcnt := by
    obtain ⟨e, hev, hout, hc⟩ | ⟨hev, hout, hc⟩ := receive_outputs b s <;>
    obtain ⟨e', hev', hout', hc'⟩ | ⟨hev', hout', hc'⟩ := receive_outputs b u
    · exact ⟨hout.trans hout'.symm, by rw [hc, hc', hcnt]⟩
    · simp [hev, hev'] at gev
    · simp [hev, hev'] at gev
    · exact ⟨hout.trans hout'.symm, by rw [hc, hc', hcnt]⟩
  exact ⟨gpstate, gstatus, gdata1, gdata2, gout.2, ghreg, gout.1, gev, by rw [gregPort, gregPort', hregPort]⟩

theorem registerSlot_sameDecoder (h : sameDecoder s u) (c : BitVec 5) (en : Bool) :
    sameDecoder (registerSlot c en s) (registerSlot c en u) := by
  obtain ⟨hpstate, hstatus, hdata1, hdata2, hcnt, hhreg, hout, hev, -⟩ := h
  unfold registerSlot
  cases kindOfCode c with
  | some k => exact ⟨hpstate, hstatus, hdata1, hdata2, hcnt, by rw [hhreg], hout, hev, rfl⟩
  | none => exact ⟨hpstate, hstatus, hdata1, hdata2, hcnt, hhreg, hout, hev, rfl⟩

theorem perform_sameTimer (h : sameTimer s u) (ops : List PinOp) : sameTimer (perform ops s) (perform ops u) := by
  obtain ⟨hcache, hpins, hseq, -⟩ := h
  exact ⟨hcache, by rw [perform_pins, perform_pins, hpins], hseq, rfl⟩

theorem writeChannelOp_sameTimer (h : sameTimer s u) (p : Params) (c : BitVec 2) (l m : Byte) :
    sameTimer (writeChannelOp p c l m s) (writeChannelOp p c l m u) := by
  have hperform := perform_sameTimer h
  obtain ⟨hcache, hpins, hseq, -⟩ := h
  simp only [writeChannelOp, ← hseq, ← hcache]
  split
  · exact ⟨rfl, hpins, rfl, rfl⟩
  · split
    · exact ⟨rfl, hpins, rfl, rfl⟩
    · split_ifs
      · obtain ⟨-, gpins, gseq, gops⟩ := hperform (writeOps p (pendingOf s.cache _ l m))
        exact ⟨rfl, gpins, gseq, gops⟩
      · exact ⟨rfl, hpins, rfl, rfl⟩

theorem emitControlWord_sameTimer (h : sameTimer s u) (p : Params) (b : Byte) :
    sameTimer (emitControlWord p b s) (emitControlWord p b u) := by
  have hperform := perform_sameTimer h
  obtain ⟨hcache, hpins, hseq, -⟩ := h
  simp only [emitControlWord, ← hseq]
  split
  · exact ⟨hcache, hpins, rfl, rfl⟩
  · split_ifs
    · obtain ⟨gcache, gpins, -, gops⟩ := hperform (List.take _ _)
      exact ⟨gcache, gpins, rfl, gops⟩
    · exact ⟨hcache, hpins, rfl, rfl⟩

end

/-! ## The statements -/

/-- Settles O45: by the port of the instruction's word, the frame of its operation. -/
theorem blocksLeaveEachOtherAlone : Obligations.BlocksLeaveEachOtherAlone := by
  intro i s t h hne
  cases hf : encode i with
  | rx b =>
    obtain rfl := Host.Outcome.next.inj ((exec_of_encode_rx hf s).symm.trans h)
    obtain ⟨htimer, -, hvoice, hinputs⟩ := receive_frame b s
    simp [forDecoder, forTimer, hf, htimer, hvoice, hinputs]
  | reg w =>
    obtain ⟨c, en, hexec, -⟩ := exec_of_encode_reg hf
    obtain rfl := Host.Outcome.next.inj ((hexec s).symm.trans h)
    obtain ⟨hvoice, hinputs⟩ := registerSlot_frame s c en
    simp [forDecoder, forTimer, hf, registerSlot_sameTimer s c en, hvoice, hinputs]
  | cmd w =>
    obtain ⟨c, l, m, hexec, -⟩ := exec_of_encode_cmd hf
    obtain rfl := Host.Outcome.next.inj ((hexec s).symm.trans h)
    obtain ⟨hvoice, hinputs⟩ := writeChannelOp_frame s Config.params c l m
    simp [forDecoder, forTimer, hf, writeChannelOp_sameDecoder s Config.params c l m, hvoice, hinputs]
  | bus b =>
    obtain rfl := Host.Outcome.next.inj ((exec_of_encode_bus hf s).symm.trans h)
    obtain ⟨hvoice, hinputs⟩ := emitControlWord_frame s Config.params b
    simp [forDecoder, forTimer, hf, emitControlWord_sameDecoder s Config.params b, hvoice, hinputs]
  | rst => exact absurd (eq_reset_of_encode_rst hf) hne

/-- Settles O46: by the port of the instruction's word, what its operation depends on. -/
theorem blocksLearnNothingOfEachOther : Obligations.BlocksLearnNothingOfEachOther := by
  intro i s₁ s₂ t₁ t₂ h₁ h₂
  cases hf : encode i with
  | rx b =>
    obtain rfl := Host.Outcome.next.inj ((exec_of_encode_rx hf s₁).symm.trans h₁)
    obtain rfl := Host.Outcome.next.inj ((exec_of_encode_rx hf s₂).symm.trans h₂)
    exact ⟨fun _ h => receive_sameDecoder h b, by simp [forTimer, hf]⟩
  | reg w =>
    obtain ⟨c, en, hexec, -⟩ := exec_of_encode_reg hf
    obtain rfl := Host.Outcome.next.inj ((hexec s₁).symm.trans h₁)
    obtain rfl := Host.Outcome.next.inj ((hexec s₂).symm.trans h₂)
    exact ⟨fun _ h => registerSlot_sameDecoder h c en, by simp [forTimer, hf]⟩
  | cmd w =>
    obtain ⟨c, l, m, hexec, -⟩ := exec_of_encode_cmd hf
    obtain rfl := Host.Outcome.next.inj ((hexec s₁).symm.trans h₁)
    obtain rfl := Host.Outcome.next.inj ((hexec s₂).symm.trans h₂)
    exact ⟨by simp [forDecoder, hf], fun _ h => writeChannelOp_sameTimer h _ c l m⟩
  | bus b =>
    obtain rfl := Host.Outcome.next.inj ((exec_of_encode_bus hf s₁).symm.trans h₁)
    obtain rfl := Host.Outcome.next.inj ((exec_of_encode_bus hf s₂).symm.trans h₂)
    exact ⟨by simp [forDecoder, hf], fun _ h => emitControlWord_sameTimer h _ b⟩
  | rst => simp [forDecoder, forTimer, hf]

/-- A byte that counts is a real-time or a data byte, and counts by one (R15, R163). -/
theorem receive_evcnt_ne {i : Instr} {b : Byte} (hf : encode i = .rx b) {s : State}
    (h : (receive Config.params b s).evcnt ≠ s.evcnt) :
    (receive Config.params b s).evcnt = (s.evcnt + 1) % 2 ^ Config.params.evcntW ∧
    (receive Config.params b s).outPort = .reports .outDispatched ∧ (i ∈ realTimeInstrs ∨ ∃ v, i = .data v) := by
  obtain ⟨e, -, hout, hcnt⟩ | ⟨-, hout, hcnt⟩ := receive_outputs b s
  · refine ⟨hcnt, hout, ?_⟩
    obtain ⟨n, rfl, rfl⟩ | ⟨n, rfl, rfl⟩ | ⟨k, ch, rfl, rfl⟩ | ⟨v, rfl, rfl⟩ := rxInstr_cases hf
    · exact .inl (decodeRealTime_mem n)
    · simp [receive_scByte] at hout
    · simp [receive_statusByte] at hout
    · exact .inr ⟨v, rfl⟩
  · exact absurd hcnt h

theorem cvInstr_mem (k : CvKind) (ch : BitVec 4) : cvInstr k ch ∈ channelVoiceInstrs ch := by
  cases k <;> simp [cvInstr, channelVoiceInstrs]

/-- A byte that changes `STATUS` is a channel-voice or a system-common status byte (R12). -/
theorem receive_status_ne {i : Instr} {b : Byte} (hf : encode i = .rx b) {s : State}
    (h : (receive Config.params b s).status ≠ s.status) :
    i ∈ systemCommonInstrs ∨ ∃ ch, i ∈ channelVoiceInstrs ch := by
  obtain ⟨n, rfl, rfl⟩ | ⟨n, rfl, rfl⟩ | ⟨k, ch, rfl, rfl⟩ | ⟨v, rfl, rfl⟩ := rxInstr_cases hf
  · exact absurd (by rw [receive_rtByte, dispatch_status]) h
  · exact .inl (decodeSystemCommon_mem n)
  · exact .inr ⟨ch, cvInstr_mem k ch⟩
  · exact absurd (by rw [receive_dataOf, dataByte_status]) h

/-- Settles O47: by the port of the instruction's word, which of the four pieces of state its operation can change. -/
theorem onlyTheseInstructionsWrite : Obligations.OnlyTheseInstructionsWrite := by
  intro i s t h hne
  cases hf : encode i with
  | rx b =>
    obtain rfl := Host.Outcome.next.inj ((exec_of_encode_rx hf s).symm.trans h)
    obtain ⟨⟨hcache, -⟩, -⟩ := receive_frame b s
    exact ⟨absurd (receive_hreg b s), receive_evcnt_ne hf, absurd hcache, receive_status_ne hf⟩
  | reg w =>
    obtain ⟨c, en, hexec, hrange⟩ := exec_of_encode_reg hf
    obtain rfl := Host.Outcome.next.inj ((hexec s).symm.trans h)
    obtain ⟨hstatus, hcnt⟩ := registerSlot_frame_decoder c en s
    obtain ⟨hcache, -⟩ := registerSlot_sameTimer s c en
    refine ⟨fun hhreg => ?_, absurd hcnt, absurd hcache, absurd hstatus⟩
    obtain hout | hslot := hrange
    · exact absurd (by rw [registerSlot_of_outOfRange hout]) hhreg
    · exact hslot
  | cmd w =>
    obtain ⟨c, l, m, hexec, hc⟩ := exec_of_encode_cmd hf
    obtain rfl := Host.Outcome.next.inj ((hexec s).symm.trans h)
    obtain ⟨-, hstatus, -, -, hcnt, hhreg, -⟩ := writeChannelOp_sameDecoder s Config.params c l m
    refine ⟨absurd hhreg, absurd hcnt, fun hcache => ?_, absurd hstatus⟩
    obtain rfl | hi := hc
    · exact absurd (by rw [writeChannelOp_of_nothingToWrite _ (nothingToWrite_three s.cache l m)]) hcache
    · exact ⟨c, l, m, hi⟩
  | bus b =>
    obtain rfl := Host.Outcome.next.inj ((exec_of_encode_bus hf s).symm.trans h)
    obtain ⟨-, hstatus, -, -, hcnt, hhreg, -⟩ := emitControlWord_sameDecoder s Config.params b
    exact ⟨absurd hhreg, absurd hcnt, absurd (emitControlWord_cache _ b s), absurd hstatus⟩
  | rst => exact absurd (eq_reset_of_encode_rst hf) hne

end Sys2Proof.Machine

/-!
PROOFS. The companion of 44_voice_glue.md. `Reprogram` is said once with the command's two bytes written out
(`reprogram_of_pos`); note-offs are followed in three ranges of their number, and a glide by its gap.
-/

namespace Sys2Proof.Machine

open Sys2Proof.Claims

/-! ## The bytes of a divisor and of a bend -/

theorem divisorLsb_eq_ofNat (d : Nat) : divisorLsb d = BitVec.ofNat 8 d :=
  BitVec.eq_of_toNat_eq (by rw [divisorLsb_toNat, BitVec.toNat_ofNat])

theorem divisorMsb_eq_ofNat (d : Nat) : divisorMsb d = BitVec.ofNat 8 (d / 256) := by
  rw [divisorMsb_eq_divisorLsb, divisorLsb_eq_ofNat]

/-- The bytes of a 16-bit divisor are its halves (R221). -/
theorem divisorBytes_of_word (w : BitVec 16) :
    divisorLsb w.toNat = w.extractLsb' 0 8 ∧ divisorMsb w.toNat = w.extractLsb' 8 8 := by
  constructor <;> apply BitVec.eq_of_toNat_eq
  · simp [divisorLsb_toNat]
  · simp [divisorMsb_toNat, Nat.shiftRight_eq_div_pow]

/-- The 14-bit value has the low seven bits of byte one below those of byte two (R219). -/
theorem bend14_toNat (d1 d2 : Byte) : (bend14 d1 d2).toNat = 128 * (d2.toNat % 128) + d1.toNat % 128 := by
  rw [bend14, BitVec.toNat_append, ← Nat.shiftLeft_add_eq_or_of_lt (BitVec.isLt _), Nat.shiftLeft_eq]
  simp [Nat.mul_comm]

theorem bendValue_eq (d1 d2 : Byte) :
    bendValue d1 d2 = 128 * ((d2.toNat % 128 : Nat) : Int) + ((d1.toNat % 128 : Nat) : Int) - 8192 := by
  rw [bendValue, bend14_toNat]
  push_cast
  rfl

theorem dataOf_toNat (v : BitVec 7) : (dataOf v).toNat = v.toNat := by
  revert v
  decide

/-! ## `Reprogram` -/

section
variable (p : Params)

theorem reprogram_zero (s : State) : reprogram p 0 s = .refused .divisorOfZero := rfl

/-- `Reprogram` offers the command of the frequency's divisor at the front of the schedule (R218; entry 13). -/
theorem reprogram_of_pos {f : Nat} (hf : 0 < f) (s : State) :
    reprogram p f s = .next { s with
      inputs := .call (.cmd (cmdWord p.voiceChannel (BitVec.ofNat 8 (p.fMaster / f))
        (BitVec.ofNat 8 (p.fMaster / f / 256)))) :: s.inputs } := by
  rw [reprogram, divisor_of_pos p hf, ← divisorLsb_eq_ofNat, ← divisorMsb_eq_ofNat]
  rfl

/-! ## Note-offs -/

theorem noteOff_of_zero {s : State} (h : s.voice.notesHeld = 0) : noteOff p s = s := by
  rw [noteOff, h]

theorem noteOff_of_one {s : State} (h : s.voice.notesHeld = 1) :
    noteOff p s = silence p { s with voice := { s.voice with notesHeld := 0 } } := by
  rw [noteOff, h]

theorem noteOff_of_add_two {s : State} {n : Nat} (h : s.voice.notesHeld = n + 2) :
    noteOff p s = { s with voice := { s.voice with notesHeld := n + 1 } } := by
  rw [noteOff, h]

/-- With no note held note-offs do nothing (R215). -/
theorem noteOffs_of_zero (n : Nat) {s : State} (h : s.voice.notesHeld = 0) : noteOffs p n s = s := by
  induction n with
  | zero => rfl
  | succ n ih => rw [noteOffs, noteOff_of_zero p h, ih]

/-- Fewer note-offs than notes held only count down (R215). -/
theorem noteOffs_of_lt {n : Nat} {s : State} (h : n < s.voice.notesHeld) :
    noteOffs p n s = { s with voice := { s.voice with notesHeld := s.voice.notesHeld - n } } := by
  induction n generalizing s with
  | zero => rfl
  | succ n ih =>
    obtain ⟨m, hm⟩ : ∃ m, s.voice.notesHeld = m + 2 := ⟨s.voice.notesHeld - 2, by omega⟩
    rw [noteOffs, noteOff_of_add_two p hm, ih (by simp only; omega), hm]
    simp only [Nat.reduceSubDiff]

/-- As many note-offs as notes held, or more, silence once (R215, R221). -/
theorem noteOffs_of_le {n : Nat} {s : State} (hpos : 0 < s.voice.notesHeld) (h : s.voice.notesHeld ≤ n) :
    noteOffs p n s = silence p { s with voice := { s.voice with notesHeld := 0 } } := by
  induction n generalizing s with
  | zero => omega
  | succ n ih =>
    by_cases hone : s.voice.notesHeld = 1
    · rw [noteOffs, noteOff_of_one p hone]
      exact noteOffs_of_zero p n rfl
    · obtain ⟨m, hm⟩ : ∃ m, s.voice.notesHeld = m + 2 := ⟨s.voice.notesHeld - 2, by omega⟩
      rw [noteOffs, noteOff_of_add_two p hm, ih (Nat.succ_pos m) (by simp only; omega)]

/-- What `Silence` offers, with the silent divisor's halves written out (R221). -/
theorem silence_inputs (s : State) : (silence p s).inputs =
    .call (.cmd (cmdWord p.voiceChannel (p.divSilent.extractLsb' 0 8) (p.divSilent.extractLsb' 8 8))) :: s.inputs := by
  obtain ⟨hlsb, hmsb⟩ := divisorBytes_of_word p.divSilent
  rw [silence, offerDivisor_inputs, hlsb, hmsb]

end

/-! ## Glide -/

/-- The step is at least 1 and at most the gap, and 1 for a gap of at most 10 (R220). -/
theorem glideStep_bounds {d : Nat} (h : 0 < d) : 1 ≤ glideStep d ∧ glideStep d ≤ d ∧ (d ≤ 10 → glideStep d = 1) := by
  unfold glideStep
  omega

theorem gap_of_le {a b : Nat} (h : a ≤ b) : gap a b = b - a := by
  unfold gap
  omega

theorem gap_of_ge {a b : Nat} (h : b ≤ a) : gap a b = a - b := by
  unfold gap
  omega

theorem glideMove_of_lt {a b : Nat} (h : a < b) : glideMove a b = a + glideStep (gap a b) := by
  rw [glideMove, if_pos h, gap_of_le (Nat.le_of_lt h)]

theorem glideMove_of_ge {a b : Nat} (h : b ≤ a) : glideMove a b = a - glideStep (gap a b) := by
  rw [glideMove, if_neg (Nat.not_lt.2 h), gap_of_ge h]

theorem glideMove_self (b : Nat) : glideMove b b = b := by
  rw [glideMove_of_ge (Nat.le_refl b), gap_of_ge (Nat.le_refl b), Nat.sub_self]
  rfl

/-- A step stays between where it began and its target (R220). -/
theorem glideMove_between (a b : Nat) :
    (a ≤ b → a ≤ glideMove a b ∧ glideMove a b ≤ b) ∧ (b ≤ a → b ≤ glideMove a b ∧ glideMove a b ≤ a) := by
  obtain h | rfl | h := Nat.lt_trichotomy a b
  · have := glideStep_bounds (d := gap a b) (by rw [gap_of_le (Nat.le_of_lt h)]; omega)
    rw [glideMove_of_lt h]
    rw [gap_of_le (Nat.le_of_lt h)] at *
    omega
  · simp [glideMove_self]
  · have := glideStep_bounds (d := gap a b) (by rw [gap_of_ge (Nat.le_of_lt h)]; omega)
    rw [glideMove_of_ge (Nat.le_of_lt h)]
    rw [gap_of_ge (Nat.le_of_lt h)] at *
    omega

/-- A step that is taken shrinks the gap (R220). -/
theorem gap_glideMove_lt {a b : Nat} (h : a ≠ b) : gap (glideMove a b) b < gap a b := by
  obtain h | h := Nat.lt_or_gt_of_ne h
  · have hstep := glideStep_bounds (d := gap a b) (by rw [gap_of_le (Nat.le_of_lt h)]; omega)
    obtain ⟨hbetween, -⟩ := glideMove_between a b
    have ⟨_, hle⟩ := hbetween (Nat.le_of_lt h)
    rw [gap_of_le hle, glideMove_of_lt h]
    rw [gap_of_le (Nat.le_of_lt h)] at *
    omega
  · have hstep := glideStep_bounds (d := gap a b) (by rw [gap_of_ge (Nat.le_of_lt h)]; omega)
    obtain ⟨-, hbetween⟩ := glideMove_between a b
    have ⟨hle, _⟩ := hbetween (Nat.le_of_lt h)
    rw [gap_of_ge hle, glideMove_of_ge (Nat.le_of_lt h)]
    rw [gap_of_ge (Nat.le_of_lt h)] at *
    omega

section
variable (p : Params) {s : State}

theorem glideTick_of_rest
    (h : p.glideEn = false ∨ s.voice.notesHeld = 0 ∨ s.voice.actualFrequency = s.voice.targetFrequency) :
    glideTick p s = .next s := by
  obtain h | h | h := h <;> simp [glideTick, h]

theorem glideTick_of_gap (hen : p.glideEn = true) (hheld : 0 < s.voice.notesHeld)
    (hne : s.voice.actualFrequency ≠ s.voice.targetFrequency) :
    glideTick p s = reprogram p (glideMove s.voice.actualFrequency s.voice.targetFrequency)
      { s with voice := { s.voice with
        actualFrequency := glideMove s.voice.actualFrequency s.voice.targetFrequency } } := by
  simp [glideTick, hen, hheld, hne]

end

/-! ## The statements -/

/-- Settles O49: the three branches of the definition. -/
theorem computeFrequencyProperties : Obligations.ComputeFrequencyProperties := by
  intro p base bend
  have inside {bend : Int} (hlow : -(p.deadLow : Int) ≤ bend) (hhigh : bend ≤ (p.deadHigh : Int)) :
      computeFrequency p base bend = base := by
    rw [computeFrequency, if_neg (by omega), if_neg (by omega)]
  refine ⟨inside (by omega) (by omega), inside, fun hbelow => ?_, fun habove => ?_⟩
  · rw [computeFrequency, if_pos hbelow]
    exact Nat.le_max_left _ _
  · rw [computeFrequency, if_neg (by omega), if_pos habove]
    exact Nat.min_le_left _ _

/-- Settles O50: `bendValue_eq`, for data bytes without the reductions, and the range of a 14-bit value. -/
theorem pitchBendAssembly : Obligations.PitchBendAssembly := by
  refine ⟨fun d1 d2 => ?_, bendValue_range, by decide, by decide, by decide⟩
  rw [bendValue_eq, dataOf_toNat, dataOf_toNat, Nat.mod_eq_of_lt d1.isLt, Nat.mod_eq_of_lt d2.isLt]

/-- Settles O51: `noteOn` is `Reprogram` after the record is updated. -/
theorem noteOnReprograms : Obligations.NoteOnReprograms := by
  intro p base s f
  have hnote : noteOn p base s = reprogram p f { s with voice := { s.voice with
      notesHeld := s.voice.notesHeld + 1, baseFrequency := base, targetFrequency := f, actualFrequency := f } } := rfl
  exact ⟨fun hf => by rw [hnote, hf, reprogram_zero], fun hf => by rw [hnote, reprogram_of_pos p hf]⟩

/-- Settles O52: none held, fewer note-offs than notes, or as many and more. -/
theorem noteOffsSilenceOnce : Obligations.NoteOffsSilenceOnce := by
  intro p n s
  obtain hzero | hpos := Nat.eq_zero_or_pos s.voice.notesHeld
  · rw [noteOffs_of_zero p n hzero]
    refine ⟨by omega, by simp [hzero], fun h => by omega, fun _ => ?_⟩
    rw [hzero, Nat.zero_sub, ← hzero]
  · obtain hlt | hle := Nat.lt_or_ge n s.voice.notesHeld
    · rw [noteOffs_of_lt p hlt]
      refine ⟨rfl, ?_, fun _ hle => by omega, fun _ => rfl⟩
      rw [if_neg (by omega), List.nil_append]
    · rw [noteOffs_of_le p hpos hle]
      refine ⟨?_, ?_, fun _ _ => ⟨rfl, rfl, rfl⟩, fun h => by omega⟩
      · rw [Nat.sub_eq_zero_of_le hle]
        rfl
      · rw [if_pos ⟨hpos, hle⟩, silence_inputs]
        rfl

/-- Settles O54: the three branches of `applyPitchBend`, the last of them `Reprogram`. -/
theorem pitchBendUpdates : Obligations.PitchBendUpdates := by
  intro p value s f
  have hbend (hheld : 0 < s.voice.notesHeld) (hglide : p.glideEn = false) : applyPitchBend p value s =
      reprogram p f { s with voice := { s.voice with
        pitchBendValue := value, targetFrequency := f, actualFrequency := f } } := by
    rw [applyPitchBend, if_neg (Nat.ne_of_gt hheld), if_neg (by simp [hglide])]
  refine ⟨fun hheld => ?_, fun hheld hglide => ?_, fun hheld hglide hf => ?_, fun hheld hglide hf => ?_⟩
  · rw [applyPitchBend, if_pos hheld]
  · rw [applyPitchBend, if_neg (Nat.ne_of_gt hheld), if_pos hglide]
  · rw [hbend hheld hglide, hf, reprogram_zero]
  · rw [hbend hheld hglide, reprogram_of_pos p hf]

/-- Settles O55: a tick at rest does nothing; any other is `Reprogram` of the frequency moved by the step of the gap. -/
theorem glideTickMovesTowardTarget : Obligations.GlideTickMovesTowardTarget := by
  intro p s a b d
  have hd : d = glideStep (gap a b) := rfl
  have hup (h : a < b) : glideMove a b = a + d := glideMove_of_lt h
  have hdown (h : b < a) : glideMove a b = a - d := glideMove_of_ge (Nat.le_of_lt h)
  refine ⟨fun hne => ?_, glideTick_of_rest p, fun hen hheld hlt => ?_, fun hen hheld hlt hzero => ?_,
    fun hen hheld hlt hpos => ?_⟩
  · have hgap : 0 < gap a b := by unfold gap; omega
    exact glideStep_bounds hgap
  · have hgap : 0 < gap a b := by unfold gap; omega
    obtain ⟨hstep, -⟩ := glideStep_bounds hgap
    rw [glideTick_of_gap p hen hheld (Nat.ne_of_lt hlt), hup hlt, reprogram_of_pos p (by omega)]
  · rw [glideTick_of_gap p hen hheld (Nat.ne_of_gt hlt), hdown hlt, hzero, reprogram_zero]
  · rw [glideTick_of_gap p hen hheld (Nat.ne_of_gt hlt), hdown hlt, reprogram_of_pos p hpos]

/-- Settles O56: each step stays between and shrinks the gap, so by induction on their number as many as the gap is wide
end on the target. -/
theorem glideConverges : Obligations.GlideConverges := by
  intro a b
  obtain ⟨hup, hdown⟩ := glideMove_between a b
  refine ⟨gap_glideMove_lt, hup, hdown, fun n => ?_⟩
  clear hup hdown
  induction n generalizing a with
  | zero =>
    intro h
    simp only [gap] at h
    simp only [Function.iterate_zero, id_eq]
    omega
  | succ n ih =>
    intro h
    rw [Function.iterate_succ_apply]
    refine ih _ ?_
    by_cases hab : a = b
    · rw [hab, glideMove_self, gap_of_le (Nat.le_refl b)]
      omega
    · have := gap_glideMove_lt hab
      omega

/-- Settles O58: the sink hands a registered event to `handleEvent`, whose branches are these kinds. -/
theorem eventsReachTheCompanion : Obligations.EventsReachTheCompanion := by
  intro p ch d1 d2 s event
  have hsink (k : EvKind) : sinkEvent p (event k) s =
      handleEvent p { kind := k, channel := ch, data1 := d1, data2 := d2, registered := true } s :=
    sinkEvent_of_registered p s rfl
  have hkey : d1.extractLsb' 0 7 = BitVec.ofNat 7 d1.toNat := BitVec.eq_of_toNat_eq (by simp)
  refine ⟨fun hvel => ?_, ?_, ?_, fun k hk => ?_, fun n => ⟨hsink (.sc n), hsink (.rt n)⟩, rfl⟩
  · rw [hsink, ← hkey]
    exact if_neg hvel
  · rw [hsink, handleEvent_of_noteOff p s rfl]
  · rw [hsink, ← bendValue_eq]
    rfl
  · simp only [List.mem_cons, List.not_mem_nil, or_false] at hk
    obtain rfl | rfl | rfl | rfl := hk <;> exact hsink _

end Sys2Proof.Machine

/-!
PROOFS. The timer programmer at the function level (43_timer_programmer.md). An accepted command either performs the
operations of `writeOps` or finds nothing to write; in both cases the cache ends with the requested bytes
(`writeChannelOp_cache`). What a monitor of the write strobe sees of the operations is `registerWrites_writeOps`.
-/

namespace Sys2Proof.Machine

open Sys2Proof.Claims

/-! ## Channels and words at the spec's values -/

theorem eq_channelId_of_timerChannel {c : BitVec 2} {ch : TimerCh} (h : timerChannel c = some ch) : c = channelId ch := by
  have all : ∀ c : BitVec 2, ∀ ch ∈ timerChannel c, c = channelId ch := by decide
  exact all c ch h

theorem timerChannel_of_ne_three {c : BitVec 2} (h : c ≠ 3#2) : ∃ ch, timerChannel c = some ch := by
  have all : ∀ c : BitVec 2, c ≠ 3#2 → (timerChannel c).isSome = true := by decide
  exact Option.isSome_iff_exists.1 (all c h)

theorem channelId_ne_three (ch : TimerCh) : channelId ch ≠ 3#2 := by
  fin_cases ch <;> decide

/-- The machine's counters stand at the addresses of their channel ids (D22; entry 6). -/
theorem params_addrCnt (ch : TimerCh) : Config.params.addrCnt ch = channelId ch := by
  fin_cases ch <;> rfl

theorem params_addrCtrl : Config.params.addrCtrl = 3#2 := rfl

/-- The control word of a command as the rule shifts its fields together (R74, R182). -/
theorem controlWordOf_eq (p : Params) (x : Pending) : controlWordOf p x =
    (channelId x.c).zeroExtend 8 <<< 6 ||| (if x.dm then 2#8 else 0#8) <<< 4 ||| (if x.dl then 1#8 else 0#8) <<< 4 |||
      p.modeBits.zeroExtend 8 <<< 1 ||| p.bcdBit.zeroExtend 8 := by
  have shifts : ∀ (c : BitVec 2) (dl dm : Bool) (mode : BitVec 3) (bcd : BitVec 1),
      controlByte c (accessMode dl dm) mode bcd =
        c.zeroExtend 8 <<< 6 ||| (if dm then 2#8 else 0#8) <<< 4 ||| (if dl then 1#8 else 0#8) <<< 4 |||
          mode.zeroExtend 8 <<< 1 ||| bcd.zeroExtend 8 := by decide
  exact shifts _ _ _ _ _

/-- The access mode of a command with a dirty byte, one value for each of the three cases (R182). -/
theorem accessMode_of_dirty {dl dm : Bool} (h : (dl || dm) = true) :
    accessMode dl dm = if dm then (if dl then 3#2 else 2#2) else 1#2 := by
  revert dl dm
  decide

theorem accessMode_ne_zero {dl dm : Bool} (h : (dl || dm) = true) : accessMode dl dm ≠ 0#2 := by
  revert dl dm
  decide

theorem controlByte_inj {c c' am am' : BitVec 2} {mode mode' : BitVec 3} {bcd bcd' : BitVec 1}
    (h : controlByte c am mode bcd = controlByte c' am' mode' bcd') : (c, am, mode, bcd) = (c', am', mode', bcd') := by
  obtain ⟨hc, ham, hmode, hbcd⟩ := fields_controlByte c am mode bcd
  obtain ⟨hc', ham', hmode', hbcd'⟩ := fields_controlByte c' am' mode' bcd'
  rw [h] at hc ham hmode hbcd
  rw [← hc, ← ham, ← hmode, ← hbcd, hc', ham', hmode', hbcd']

/-! ## `writeChannel` -/

theorem writeChannelOp_of_busy (p : Params) (c : BitVec 2) (l m : Byte) {s : State} (h : s.seq ≠ .idle) :
    writeChannelOp p c l m s = { s with pinOps := [] } := by
  obtain hs | ⟨ch, hidle, -⟩ := writeChannelOp_cases p c l m s
  · exact hs
  · exact absurd hidle h

/-- The cache update of a command makes the entry the requested bytes, both valid (R186). -/
theorem cacheUpdate_pendingOf (t : Cache) (ch : TimerCh) (l m : Byte) :
    cacheUpdate (pendingOf t ch l m) t = cacheSet t ch ⟨l, m, true, true⟩ :=
  congrArg (cacheSet t ch) (entryUpdate_of_dirty (cacheGet t ch) l m)

section
variable (p : Params) {c : BitVec 2} {ch : TimerCh} (l m : Byte) {s : State} (hidle : s.seq = .idle)
  (hch : timerChannel c = some ch)
include hidle hch

theorem writeChannelOp_of_dirty (hdirty : ((pendingOf s.cache ch l m).dl || (pendingOf s.cache ch l m).dm) = true) :
    writeChannelOp p c l m s = { perform (writeOps p (pendingOf s.cache ch l m)) s with
      cache := cacheSet s.cache ch ⟨l, m, true, true⟩ } := by
  rw [← cacheUpdate_pendingOf]
  simp only [writeChannelOp, hidle, hch, hdirty, if_true]

/-- An accepted command writes, or its bytes are in the cache as valid. -/
theorem writeChannelOp_accepted :
    (((pendingOf s.cache ch l m).dl || (pendingOf s.cache ch l m).dm) = true ∧
      writeChannelOp p c l m s = { perform (writeOps p (pendingOf s.cache ch l m)) s with
        cache := cacheSet s.cache ch ⟨l, m, true, true⟩ }) ∨
    (cacheGet s.cache ch = ⟨l, m, true, true⟩ ∧ writeChannelOp p c l m s = { s with pinOps := [] }) := by
  cases hdirty : (pendingOf s.cache ch l m).dl || (pendingOf s.cache ch l m).dm
  · obtain ⟨hdl, hdm⟩ := Bool.or_eq_false_iff.1 hdirty
    obtain ⟨hlv, hl⟩ := (dirtyLsb_eq_false_iff _ _).1 hdl
    obtain ⟨hmv, hm⟩ := (dirtyMsb_eq_false_iff _ _).1 hdm
    have hentry : cacheGet s.cache ch = ⟨l, m, true, true⟩ :=
      calc cacheGet s.cache ch
        _ = ⟨(cacheGet s.cache ch).lsbc, (cacheGet s.cache ch).msbc, (cacheGet s.cache ch).lsbv,
          (cacheGet s.cache ch).msbv⟩ := rfl
        _ = ⟨l, m, true, true⟩ := by rw [hl, hm, hlv, hmv]
    refine .inr ⟨hentry, ?_⟩
    simp only [writeChannelOp, hidle, hch, hdirty, Bool.false_eq_true, if_false]
  · exact .inl ⟨rfl, writeChannelOp_of_dirty p l m hidle hch hdirty⟩

/-- After an accepted command the entry holds the request and the other entries are as they were (R186). -/
theorem writeChannelOp_cache : cacheGet (writeChannelOp p c l m s).cache ch = ⟨l, m, true, true⟩ ∧
    ∀ other, other ≠ ch → cacheGet (writeChannelOp p c l m s).cache other = cacheGet s.cache other := by
  obtain ⟨-, h⟩ | ⟨hentry, h⟩ := writeChannelOp_accepted p l m hidle hch <;> rw [h]
  · exact ⟨cacheGet_cacheSet_same _ _ _, fun other hne => cacheGet_cacheSet_other _ _ hne⟩
  · exact ⟨hentry, fun _ _ => rfl⟩

end

/-- A command at the function level leaves the sequencer as it was (R5). -/
theorem writeChannelOp_seq (p : Params) (c : BitVec 2) (l m : Byte) (s : State) :
    (writeChannelOp p c l m s).seq = s.seq := by
  obtain h | ⟨ch, -, -, -, h⟩ := writeChannelOp_cases p c l m s <;> simp [h]

/-- The same command again finds nothing to write (R187). -/
theorem nothingToWrite_after (p : Params) {c : BitVec 2} (l m : Byte) {s : State} (hidle : s.seq = .idle) :
    nothingToWrite (writeChannelOp p c l m s).cache c l m := by
  intro ch hch
  obtain ⟨hentry, -⟩ := writeChannelOp_cache p l m hidle hch
  rw [hentry, dirtyLsb_eq_false_iff, dirtyMsb_eq_false_iff]
  exact ⟨⟨rfl, rfl⟩, rfl, rfl⟩

/-! ## What the write strobe shows -/

/-- One bus write is one register write, and what follows begins with its address and data on the lines (R44, R256). -/
theorem registerWrites_busWrite (a : BitVec 2) (v : Byte) (ops : List PinOp) {x : Pins} (h : x.wrn = true) :
    registerWrites (busWrite a v ++ ops) x = (a, v) :: registerWrites ops { x with a := a, d := v, wrn := true } := by
  simp [busWrite, registerWrites, pinOp, h]

theorem registerWrites_csHigh (x : Pins) : registerWrites [.csHigh] x = [] := rfl

theorem registerWrites_csLow (ops : List PinOp) (x : Pins) :
    registerWrites (.csLow :: ops) x = registerWrites ops { x with csn := false } := rfl

/-- The register writes of a command: its control word, then its dirty bytes (R185, R188). -/
theorem registerWrites_writeOps (p : Params) (x : Pending) {y : Pins} (h : y.wrn = true) :
    registerWrites (writeOps p x) y = (p.addrCtrl, controlWordOf p x) ::
      ((if x.dl then [(p.addrCnt x.c, x.l)] else []) ++ (if x.dm then [(p.addrCnt x.c, x.m)] else [])) := by
  simp only [writeOps, controlOps, dataOps, List.append_assoc, List.cons_append, List.nil_append, registerWrites_csLow]
  rw [registerWrites_busWrite (x := { y with csn := false }) _ _ _ h]
  cases x.dl <;> cases x.dm <;>
    simp [registerWrites_busWrite, registerWrites_csHigh]

/-! ## The statements -/

/-- The operations of a command as the rule lists them (R184, R185). -/
theorem writeOps_eq (p : Params) (x : Pending) : writeOps p x =
    [.csLow] ++ oneWrite p.addrCtrl (controlWordOf p x) ++ (if x.dl then oneWrite (p.addrCnt x.c) x.l else []) ++
      (if x.dm then oneWrite (p.addrCnt x.c) x.m else []) ++ [.csHigh] := by
  simp only [writeOps, controlOps, dataOps, ← List.append_assoc]
  rfl

/-- Settles O35: an accepted command with a dirty byte performs `writeOps`, whose control word `controlWordOf_eq` writes
out. -/
theorem writeChannelWritesDirtyBytes : Obligations.WriteChannelWritesDirtyBytes := by
  rintro c ch l m dl dm s hidle hc rfl rfl hdirty high ops written
  have hch : timerChannel c = some ch := timerChannel_of_toNat_eq hc
  obtain rfl : c = channelId ch := eq_channelId_of_timerChannel hch
  have hops (p : Params) : writeOps p (pendingOf s.cache ch l m) = ops p := by
    rw [writeOps_eq, controlWordOf_eq]
    rfl
  have hwrite (p : Params) : writeChannelOp p (channelId ch) l m s = written (ops p) := by
    rw [writeChannelOp_of_dirty p l m hidle hch hdirty, hops]
    rfl
  refine ⟨fun p => congrArg _ (hwrite p), ?_⟩
  have hword : high ||| Config.params.modeBits.zeroExtend 8 <<< 1 ||| Config.params.bcdBit.zeroExtend 8 =
      high ||| 0x06#8 := BitVec.or_zero
  rw [exec_writeChannel, hwrite]
  simp only [ops, hword, params_addrCtrl, params_addrCnt]

/-- Settles O38: a busy sequencer turns the call away, and its edge does not look at what is offered. -/
theorem busyTurnsCommandsAway : Obligations.BusyTurnsCommandsAway := by
  intro c l m w hold s hbusy
  rw [exec_writeChannel, writeChannelOp_of_busy _ _ _ _ hbusy, timerEdge_of_busy _ _ _ hbusy, timerEdge_of_busy _ _ _ hbusy]
  exact ⟨rfl, rfl⟩

/-- Settles O40: `writeChannelOp_cache`. -/
theorem cacheHoldsTheRequest : Obligations.CacheHoldsTheRequest :=
  fun c _ l m s hidle hc => ⟨_, exec_writeChannel c l m s,
    writeChannelOp_cache _ l m hidle (timerChannel_of_toNat_eq hc)⟩

/-- Settles O41: after the first call there is nothing to write; from an invalid entry the first writes the control word
and both bytes. -/
theorem writeTwiceWritesOnce : Obligations.WriteTwiceWritesOnce := by
  intro c l m s hidle hne
  refine ⟨_, exec_writeChannel c l m s, ?_, fun e hcache hlv hmv hwrn => ?_⟩
  · rw [exec_writeChannel, writeChannelOp_of_nothingToWrite _ (nothingToWrite_after _ l m hidle)]
  · obtain ⟨ch, hch⟩ := timerChannel_of_ne_three hne
    have hentry : cacheGet s.cache ch = e := by
      rw [hcache]
      fin_cases ch <;> rfl
    have hdl : (pendingOf s.cache ch l m).dl = true := by simp [pendingOf, dirtyLsb, hentry, hlv]
    have hdm : (pendingOf s.cache ch l m).dm = true := by simp [pendingOf, dirtyMsb, hentry, hmv]
    rw [writeChannelOp_of_dirty _ l m hidle hch (by rw [hdl]; rfl), perform_pinOps, registerWrites_writeOps _ _ hwrn, hdl,
      hdm]
    rfl

/-- The control word of a command with a dirty byte is one of the nine (R75, R78). -/
theorem controlWordOf_mem {x : Pending} (h : (x.dl || x.dm) = true) : controlWordOf Config.params x ∈ nineControlWords :=
  (controlWordsAreTheNine _).1
    ⟨_, CodeRow.decode_eq (.control (channelId x.c) (accessMode x.dl x.dm) (channelId_ne_three x.c) (accessMode_ne_zero h))⟩

/-- Settles O42: a command writes nothing, or the registers `registerWrites_writeOps` lists, by which bytes are dirty. -/
theorem registerWritesOfACommand : Obligations.RegisterWritesOfACommand := by
  intro c l m s t hidle hwrn h
  rw [exec_writeChannel] at h
  obtain rfl := Host.Outcome.next.inj h
  by_cases hc : c = 3#2
  · subst hc
    rw [writeChannelOp_of_nothingToWrite _ (nothingToWrite_three s.cache l m)]
    exact .inl rfl
  · obtain ⟨ch, hch⟩ := timerChannel_of_ne_three hc
    obtain rfl : c = channelId ch := eq_channelId_of_timerChannel hch
    obtain ⟨hdirty, h⟩ | ⟨-, h⟩ := writeChannelOp_accepted Config.params l m hidle hch <;> rw [h]
    · obtain ⟨fc, fam, -, -⟩ := fields_controlByte (channelId ch)
        (accessMode (pendingOf s.cache ch l m).dl (pendingOf s.cache ch l m).dm) Config.params.modeBits Config.params.bcdBit
      refine .inr ⟨_, controlWordOf_mem hdirty, fc, ?_⟩
      rw [perform_pinOps, registerWrites_writeOps _ _ hwrn, controlWordOf]
      simp only [pendingOf, params_addrCtrl, params_addrCnt] at fam hdirty ⊢
      rw [fam]
      revert hdirty
      cases dirtyLsb (cacheGet s.cache ch) l <;> cases dirtyMsb (cacheGet s.cache ch) m <;> simp [accessMode]
    · exact .inl rfl

/-- Settles O43: by induction on the commands; each sets the entry of its own channel. -/
theorem cacheRemembersTheLastCommand : Obligations.CacheRemembersTheLastCommand := by
  intro cs c
  induction cs with
  | nil => exact fun s _ => rfl
  | cons cmd cs ih =>
    obtain ⟨c', l, m⟩ := cmd
    intro s hidle
    rw [writeAll, ih _ ((writeChannelOp_seq _ c' l m s).trans hidle), lastCommand]
    cases lastCommand c cs with
    | some x => rfl
    | none =>
      by_cases hc : c' = 3#2
      · subst hc
        rw [writeChannelOp_of_nothingToWrite _ (nothingToWrite_three s.cache l m), timerChannel_three]
        rfl
      · obtain ⟨ch, hch⟩ := timerChannel_of_ne_three hc
        obtain ⟨hentry, hother⟩ := writeChannelOp_cache Config.params l m hidle hch
        by_cases hsame : c = ch
        · rw [hsame, hentry, hch, if_pos rfl]
        · rw [hch, if_neg (fun h => hsame (Option.some.inj h).symm)]
          exact hother c hsame

/-! ## CONTROL_WORD -/

theorem exec_controlWord (c am : BitVec 2) (mode : BitVec 3) (bcd : BitVec 1) (s : State) :
    exec (.controlWord c am mode bcd) s = .next (emitControlWord Config.params (controlByte c am mode bcd) s) := rfl

section
variable (p : Params) (b : Byte) {s : State}

theorem emitControlWord_of_idle (h : s.seq = .idle) : emitControlWord p b s = { s with pinOps := [] } := by
  obtain hs | ⟨x, ops, w, n, hbusy, -⟩ := emitControlWord_cases p b s
  · exact hs
  · rw [h] at hbusy
    cases hbusy

variable {x : Pending} {w : Nat}

/-- What remains of the control word's register write goes out, and the data bytes are left (entry 8). -/
theorem emitControlWord_of_left {left : List PinOp} (hleft : left ≠ []) (h : s.seq = .busy x (left ++ dataOps p x) w) :
    emitControlWord p (controlWordOf p x) s =
      { s with pins := pinOpsOn left s.pins, pinOps := left, seq := .busy x (dataOps p x) 0 } := by
  have hlen : (left ++ dataOps p x).length - (dataOps p x).length = left.length := by simp
  have hpos : 0 < left.length := List.length_pos_of_ne_nil hleft
  simp only [emitControlWord, h, hlen, hpos, and_self, if_true, List.take_left, List.drop_left]
  rfl

/-- With the control word out nothing goes out. -/
theorem emitControlWord_of_out {rest : List PinOp} (hrest : rest <:+ dataOps p x) (h : s.seq = .busy x rest w) :
    emitControlWord p b s = { s with pinOps := [] } := by
  have hlen : rest.length - (dataOps p x).length = 0 := Nat.sub_eq_zero_of_le hrest.length_le
  simp only [emitControlWord, h, hlen, Nat.lt_irrefl, and_false, if_false]

/-- No other byte goes out. -/
theorem emitControlWord_of_ne {ops : List PinOp} (h : s.seq = .busy x ops w) (hb : b ≠ controlWordOf p x) :
    emitControlWord p b s = { s with pinOps := [] } := by
  simp only [emitControlWord, h, hb, false_and, if_false]

end

/-- Settles O39: idle, in part left, already out, or another byte. -/
theorem controlWordIsEmitted : Obligations.ControlWordIsEmitted := by
  refine ⟨fun c am mode bcd s hidle => ?_, ?_⟩
  · rw [exec_controlWord, emitControlWord_of_idle _ _ hidle]
  intro c ch l m dl dm gone left w s am b x data hc hdirty _ hbusy
  obtain rfl : c = channelId ch := eq_channelId_of_timerChannel (timerChannel_of_toNat_eq hc)
  have hword : controlWordOf Config.params x = controlByte (channelId ch) am 3#3 0#1 := by
    rw [controlWordOf, accessMode_of_dirty hdirty]
    rfl
  have hdata : data = dataOps Config.params x := by
    rw [dataOps, params_addrCnt]
    rfl
  refine ⟨fun hleft => ?_, fun rest c' am' mode bcd hrest => ?_, fun c' am' mode bcd hne => ?_⟩
  · rw [hdata] at hbusy
    rw [exec_controlWord, ← hword, emitControlWord_of_left _ hleft hbusy, hdata]
  · rw [exec_controlWord, emitControlWord_of_out (x := x) (w := w) _ _ (hdata ▸ hrest) rfl]
  · rw [exec_controlWord, emitControlWord_of_ne _ _ hbusy]
    rw [hword]
    exact fun h => hne (controlByte_inj h)

end Sys2Proof.Machine

/-!
PROOFS. The bus sequencer over clock edges (43_timer_programmer.md R190, 20_memory.md R44). The edges a list of pin
operations takes are counted operation by operation (`edgesOf`), and one edge of the sequencer takes one off the count; a
whole sequence is followed by induction on it (`sequenceRuns_of_busy`). That a settle delay lasts, that address and data are
set up before the strobe, and that a held edge only delays, are facts about one edge.
-/

namespace Sys2Proof.Machine

open Sys2Proof.Claims

/-! ## Runs, one step at a time -/

section
variable {s t u : State}

theorem run_succ_of_step (h : step s = .next t) (n : Nat) :
    Host.Core.run Sys2Proof.core (n + 1) s = Host.Core.run Sys2Proof.core n t := by
  have hcore : Sys2Proof.core.step s = .next t := h
  simp only [Host.Core.run, hcore]

theorem opsOfRun_succ_of_step (h : step s = .next t) (n : Nat) : opsOfRun (n + 1) s = t.pinOps ++ opsOfRun n t := by
  rw [opsOfRun, h]

end

/-- What the timer programmer leaves alone of the decoder's registers and the companion (R50). -/
def othersKept (t s : State) : Prop :=
  t.pstate = s.pstate ∧ t.status = s.status ∧ t.data1 = s.data1 ∧ t.data2 = s.data2 ∧ t.evcnt = s.evcnt ∧
  t.hreg = s.hreg ∧ t.voice = s.voice

theorem othersKept_refl (s : State) : othersKept s s := ⟨rfl, rfl, rfl, rfl, rfl, rfl, rfl⟩

theorem othersKept.trans {s t u : State} (h : othersKept u t) (h' : othersKept t s) : othersKept u s := by
  obtain ⟨h1, h2, h3, h4, h5, h6, h7⟩ := h
  obtain ⟨h1', h2', h3', h4', h5', h6', h7'⟩ := h'
  exact ⟨h1.trans h1', h2.trans h2', h3.trans h3', h4.trans h4', h5.trans h5', h6.trans h6', h7.trans h7'⟩

theorem heldEdge_othersKept (p : Params) (hold : Bool) (s : State) : othersKept (heldEdge p hold s) s := by
  obtain ⟨⟨h1, h2, h3, h4, h5, h6, -⟩, h7, -⟩ := heldEdge_frame p hold s
  exact ⟨h1, h2, h3, h4, h5, h6, h7⟩

theorem heldEdge_inputs (p : Params) (hold : Bool) (s : State) : (heldEdge p hold s).inputs = s.inputs :=
  (heldEdge_frame p hold s).2.2

/-! ## Edges and the timer programmer -/

/-- With nothing offered the timer programmer's part is the sequencer's. -/
theorem timerEdge_none (p : Params) (hold : Bool) (s : State) : timerEdge p hold none s = heldEdge p hold s := by
  by_cases h : s.seq = .idle
  · have hseq : seqEdge p s = s := by simp only [seqEdge, h]
    obtain hheld | hheld := heldEdge_cases p hold s
    · rw [timerEdge_none_of_idle p hold h, hheld]
    · rw [timerEdge_none_of_idle p hold h, hheld, hseq]
  · exact timerEdge_of_busy p hold none h

theorem step_idle {s : State} (h : s.inputs = []) : step s = .next (seqEdge Config.params (newCycle s)) := by
  rw [step, stepOf_idle _ _ h, timerEdge_none, heldEdge_false]

theorem step_holdEdge {s : State} {hold : Bool} {rest : List Stimulus} (h : s.inputs = .clock (holdEdge hold) :: rest) :
    step s = .next (heldEdge Config.params hold (s.taking rest)) := by
  rw [step, stepOf_clock _ _ h, clockEdge_of_offered Config.params (e := holdEdge hold) rfl rfl rfl, ← timerEdge_none]
  rfl

/-- A word of the decoder's ports leaves the timer programmer and the schedule (R50). -/
theorem runFrame_decoder_frame {f : Frame} {s t : State} (hf : (∃ b, f = .rx b) ∨ ∃ w, f = .reg w)
    (h : runFrame f s = .next t) : sameTimer t s ∧ t.inputs = s.inputs := by
  obtain ⟨i, hdec, hexec⟩ := runFrame_eq_next_iff.1 h
  obtain ⟨henc, -⟩ := encodeOfDecode.2 f i hdec
  have hdecoder : forDecoder i = true := by
    obtain ⟨b, rfl⟩ | ⟨w, rfl⟩ := hf <;> simp [forDecoder, henc]
  have hne : i ≠ .reset := by
    rintro rfl
    simp [forDecoder, encode] at hdecoder
  obtain ⟨-, hinputs, -, htimer, -⟩ := blocksLeaveEachOtherAlone i s t hexec hne
  exact ⟨htimer hdecoder, hinputs⟩

theorem sameTimer.trans {s t u : State} (h : sameTimer u t) (h' : sameTimer t s) : sameTimer u s := by
  obtain ⟨h1, h2, h3, h4⟩ := h
  obtain ⟨h1', h2', h3', h4'⟩ := h'
  exact ⟨h1.trans h1', h2.trans h2', h3.trans h3', h4.trans h4'⟩

/-- An edge without reset is, for the timer programmer, its own part alone: what else is offered leaves it (R248). -/
theorem clockEdge_for_timer {e : Edge} (he : e.rst = false) (s : State) :
    ∃ s₂, clockEdge Config.params runFrame e s = .next (timerEdge Config.params e.hold e.cmd s₂) ∧
      sameTimer s₂ s ∧ s₂.inputs = s.inputs := by
  obtain ⟨s₁, h₁⟩ := runOffered_reg_total e.reg s
  obtain ⟨s₂, h₂⟩ := runOffered_rx_total e.rx s₁
  have hreg : sameTimer s₁ s ∧ s₁.inputs = s.inputs := by
    cases hr : e.reg with
    | none =>
      rw [hr] at h₁
      obtain rfl := Host.Outcome.next.inj h₁
      exact ⟨sameTimer_refl s, rfl⟩
    | some w =>
      rw [hr] at h₁
      exact runFrame_decoder_frame (.inr ⟨w, rfl⟩) h₁
  have hrx : sameTimer s₂ s₁ ∧ s₂.inputs = s₁.inputs := by
    cases hb : e.rx with
    | none =>
      rw [hb] at h₂
      obtain rfl := Host.Outcome.next.inj h₂
      exact ⟨sameTimer_refl s₁, rfl⟩
    | some b =>
      rw [hb] at h₂
      exact runFrame_decoder_frame (.inl ⟨b, rfl⟩) h₂
  obtain ⟨hreg, hregInputs⟩ := hreg
  obtain ⟨hrx, hrxInputs⟩ := hrx
  exact ⟨s₂, clockEdge_of_offered _ he h₁ h₂, hrx.trans hreg, hrxInputs.trans hregInputs⟩

/-! ## The edges that pin operations take -/

/-- The edges an operation takes: those that set up data or release chip-select take their own, a settle delay takes
`T_SETTLE`, any other shares the edge of the next (R190, R191). -/
def opEdges (p : Params) : PinOp → Nat
  | .settle => p.tSettle
  | .setData _ => 1
  | .csHigh => 1
  | .csLow | .setAddr _ | .wrLow | .wrHigh => 0

/-- The edges a list of operations takes. -/
def edgesOf (p : Params) (ops : List PinOp) : Nat := (ops.map (opEdges p)).sum

@[simp] theorem edgesOf_nil (p : Params) : edgesOf p [] = 0 := rfl
@[simp] theorem edgesOf_cons (p : Params) (o : PinOp) (ops : List PinOp) :
    edgesOf p (o :: ops) = opEdges p o + edgesOf p ops := rfl

theorem edgesOf_append (p : Params) (as bs : List PinOp) : edgesOf p (as ++ bs) = edgesOf p as + edgesOf p bs := by
  simp [edgesOf]

theorem edgesOf_busWrite (p : Params) (a : BitVec 2) (v : Byte) : edgesOf p (busWrite a v) = 1 + 2 * p.tSettle := by
  simp only [busWrite, edgesOf_cons, edgesOf_nil, opEdges]
  omega

/-- A command takes the edges of its register writes and one that releases chip-select (R190). -/
theorem edgesOf_writeOps (p : Params) {x : Pending} (h : (x.dl || x.dm) = true) :
    edgesOf p (writeOps p x) = writesOf x * (1 + 2 * p.tSettle) + 1 := by
  simp only [writeOps, controlOps, dataOps, writesOf, h, if_true, edgesOf_append, edgesOf_busWrite]
  cases x.dl <;> cases x.dm <;> simp [edgesOf_busWrite, opEdges] <;> omega

section
variable {o : PinOp} {ops : List PinOp}

theorem splitEdge_of_ends (h : endsEdge o = true) : splitEdge (o :: ops) = ([o], ops) := if_pos h

theorem splitEdge_of_not_ends (h : endsEdge o = false) :
    splitEdge (o :: ops) = (o :: (splitEdge ops).1, (splitEdge ops).2) := if_neg (by simp [h])

theorem settleWait_cons (p : Params) (h : endsEdge o = false) (now : List PinOp) :
    settleWait p (o :: now) = settleWait p now := by
  cases o <;> simp_all [settleWait, endsEdge]

/-- The operations of one edge take that edge and the wait it leaves (R190). -/
theorem edgesOf_now (p : Params) (h : .csHigh ∈ ops) :
    edgesOf p (splitEdge ops).1 = 1 + settleWait p (splitEdge ops).1 := by
  induction ops with
  | nil => cases h
  | cons o ops ih =>
    cases ho : endsEdge o
    · have hmem : .csHigh ∈ ops := by
        refine (List.mem_cons.1 h).resolve_left fun hc => ?_
        rw [← hc] at ho
        cases ho
      have hzero : opEdges p o = 0 := by
        cases o <;> simp_all [opEdges, endsEdge]
      rw [splitEdge_of_not_ends ho, edgesOf_cons, settleWait_cons p ho, hzero, ih hmem, Nat.zero_add]
    · rw [splitEdge_of_ends ho]
      cases o with
      | settle => exact Nat.add_comm p.settleExtra 1
      | setData | csHigh => rfl
      | csLow | setAddr | wrLow | wrHigh => cases ho

/-- One edge, the wait it leaves, and what the rest takes. -/
theorem edgesOf_split (p : Params) (h : .csHigh ∈ ops) :
    edgesOf p ops = 1 + settleWait p (splitEdge ops).1 + edgesOf p (splitEdge ops).2 := by
  rw [← edgesOf_now p h, ← edgesOf_append, splitEdge_append]

/-- The edge that releases chip-select leaves no wait. -/
theorem settleWait_of_csHigh (p : Params) (h : .csHigh ∈ (splitEdge ops).1) : settleWait p (splitEdge ops).1 = 0 := by
  induction ops with
  | nil => rfl
  | cons o ops ih =>
    cases ho : endsEdge o
    · rw [splitEdge_of_not_ends ho] at h ⊢
      rw [settleWait_cons p ho]
      refine ih ((List.mem_cons.1 h).resolve_left fun hc => ?_)
      rw [← hc] at ho
      cases ho
    · rw [splitEdge_of_ends ho] at h ⊢
      rw [← List.mem_singleton.1 h]
      rfl

end

/-! ## A whole bus sequence -/

/-- With nothing offered the sequence of `x` that has `ops` left goes on for `n` edges: busy with the cache untouched until
the last, it performs `ops`, updates the cache and leaves the decoder and the companion alone. -/
def sequenceRuns (x : Pending) (ops : List PinOp) (n : Nat) (s : State) : Prop :=
  (∀ k, k < n → ∃ t, Host.Core.run Sys2Proof.core k s = .next t ∧ t.busy = true ∧ t.cache = s.cache) ∧
  opsOfRun n s = ops ∧
  ∃ t, Host.Core.run Sys2Proof.core n s = .next t ∧ t.seq = .idle ∧ t.pins = pinOpsOn ops s.pins ∧
    t.cache = cacheUpdate x s.cache ∧ othersKept t s ∧ t.inputs = []

/-- An edge that performs `now` and leaves the cache takes the sequence from `now ++ later` to `later`. -/
theorem sequenceRuns_cons {x : Pending} {now later : List PinOp} {n : Nat} {s t : State} (h : step s = .next t)
    (hbusy : s.seq ≠ .idle) (hops : t.pinOps = now) (hpins : t.pins = pinOpsOn now s.pins) (hcache : t.cache = s.cache)
    (hothers : othersKept t s) (hrest : sequenceRuns x later n t) : sequenceRuns x (now ++ later) (n + 1) s := by
  obtain ⟨hmid, hlater, u, hu, huseq, hupins, hucache, huothers, huinputs⟩ := hrest
  refine ⟨fun k hk => ?_, ?_, u, ?_, huseq, ?_, ?_, huothers.trans hothers, huinputs⟩
  · cases k with
    | zero => exact ⟨s, rfl, (busy_eq_true_iff s).2 hbusy, rfl⟩
    | succ k =>
      obtain ⟨v, hv, hvbusy, hvcache⟩ := hmid k (by omega)
      exact ⟨v, (run_succ_of_step h k).trans hv, hvbusy, hvcache.trans hcache⟩
  · rw [opsOfRun_succ_of_step h, hops, hlater]
  · rw [run_succ_of_step h, hu]
  · rw [hupins, hpins, pinOpsOn_append]
  · rw [hucache, hcache]

/-- A sequence that ends with chip-select released runs for as many edges as its wait and its operations take (R190). -/
theorem sequenceRuns_of_busy {x : Pending} {n : Nat} {ops : List PinOp} {wait : Nat} {s : State} (hin : s.inputs = [])
    (hseq : s.seq = .busy x ops wait) (hend : [.csHigh] <:+ ops) (hn : n = wait + edgesOf Config.params ops) :
    sequenceRuns x ops n s := by
  induction n generalizing s ops wait with
  | zero =>
    have hedges := edgesOf_split Config.params (hend.subset List.mem_cons_self)
    omega
  | succ n ih =>
    have hedges := edgesOf_split Config.params (hend.subset List.mem_cons_self)
    have hbusy : s.seq ≠ .idle := by simp [hseq]
    have hstep := step_idle hin
    obtain ⟨hidle, -⟩ | ⟨y, ops', w, hbusy', e⟩ | ⟨y, ops', hbusy', hleft, e⟩ | ⟨y, ops', hbusy', hlast, e⟩ :=
      seqEdge_cases Config.params (newCycle s)
    · exact absurd hidle hbusy
    · obtain ⟨rfl, rfl, rfl⟩ := Seq.busy.inj (hseq.symm.trans hbusy')
      rw [e] at hstep
      have hrest := ih (s := { newCycle s with seq := .busy x ops w }) hin rfl hend (by omega)
      exact sequenceRuns_cons (now := []) hstep hbusy rfl rfl rfl (othersKept_refl s) hrest
    · obtain ⟨rfl, rfl, rfl⟩ := Seq.busy.inj (hseq.symm.trans hbusy')
      rw [e] at hstep
      have hend' : [.csHigh] <:+ (splitEdge ops).2 :=
        List.suffix_of_suffix_length_le hend (splitEdge_suffix ops) (List.length_pos_of_ne_nil hleft)
      have hrest := ih (s := { perform (splitEdge ops).1 (newCycle s) with
          seq := .busy x (splitEdge ops).2 (settleWait Config.params (splitEdge ops).1) }) hin rfl hend' (by omega)
      have hall := sequenceRuns_cons (now := (splitEdge ops).1) hstep hbusy rfl rfl rfl (othersKept_refl s) hrest
      rwa [splitEdge_append] at hall
    · obtain ⟨rfl, rfl, rfl⟩ := Seq.busy.inj (hseq.symm.trans hbusy')
      rw [e] at hstep
      have hall : (splitEdge ops).1 = ops := by simpa [hlast] using splitEdge_append ops
      have hwait := settleWait_of_csHigh Config.params (ops := ops) (hall.symm ▸ hend.subset List.mem_cons_self)
      obtain rfl : n = 0 := by
        rw [hlast, edgesOf_nil] at hedges
        omega
      rw [hall] at hstep
      refine ⟨fun k hk => ?_, ?_, _, run_succ_of_step hstep 0, rfl, rfl, rfl, othersKept_refl s, hin⟩
      · obtain rfl : k = 0 := by omega
        exact ⟨s, rfl, (busy_eq_true_iff s).2 hbusy, rfl⟩
      · rw [opsOfRun_succ_of_step hstep]
        exact List.append_nil ops

/-! ## The first edge of a command -/

/-- An accepted command with a dirty byte begins its sequence on the edge it is offered on (R190). -/
theorem timerEdge_of_accepted (p : Params) (hold : Bool) {c : BitVec 2} {ch : TimerCh} (l m : Byte) {s : State}
    (hidle : s.seq = .idle) (hch : timerChannel c = some ch)
    (hdirty : ((pendingOf s.cache ch l m).dl || (pendingOf s.cache ch l m).dm) = true) :
    timerEdge p hold (some (c ++ (l ++ m))) s = heldEdge p hold
      { s with seq := .busy (pendingOf s.cache ch l m) (writeOps p (pendingOf s.cache ch l m)) 0 } := by
  simp only [timerEdge, hidle, acceptCommand]
  rw [cmdChannel_append, cmdLsb_append, cmdMsb_append, hch]
  exact if_pos hdirty

/-- Steps from states with the same next step lead to the same states. -/
theorem run_of_step_eq {s s' t : State} (h : step s = .next t) (h' : step s' = .next t) (n : Nat) :
    Host.Core.run Sys2Proof.core (1 + n) s = Host.Core.run Sys2Proof.core (1 + n) s' ∧
      opsOfRun (1 + n) s = opsOfRun (1 + n) s' := by
  rw [Nat.add_comm 1 n, run_succ_of_step h, run_succ_of_step h', opsOfRun_succ_of_step h, opsOfRun_succ_of_step h']
  exact ⟨rfl, rfl⟩

theorem dirty_of_writesOf_pos {x : Pending} (h : 0 < writesOf x) : (x.dl || x.dm) = true := by
  by_contra hdirty
  simp [writesOf, hdirty] at h

theorem csHigh_suffix_writeOps (p : Params) (x : Pending) : [.csHigh] <:+ writeOps p x :=
  (List.suffix_append _ _).trans (List.suffix_append _ _)

/-- Settles O44: the edge the command is offered on is the first of its sequence, which then runs by itself. -/
theorem cycleLevelRefinesFunctionLevel : Obligations.CycleLevelRefinesFunctionLevel := by
  intro c ch l m s u hidle hin hc hwrites hexec n
  have hch : timerChannel c = some ch := timerChannel_of_toNat_eq hc
  have hdirty := dirty_of_writesOf_pos hwrites
  rw [exec_writeChannel, writeChannelOp_of_dirty _ l m hidle hch hdirty, ← cacheUpdate_pendingOf] at hexec
  obtain rfl := Host.Outcome.next.inj hexec
  let x := pendingOf s.cache ch l m
  let s₀ : State := { s with inputs := [], seq := .busy x (writeOps Config.params x) 0 }
  have hfirst : step s = .next (seqEdge Config.params (newCycle s₀)) := by
    rw [step, stepOf_clock _ _ hin, clockEdge_of_offered Config.params (e := offering (c ++ (l ++ m))) rfl rfl rfl]
    exact congrArg _ (timerEdge_of_accepted (s := s.taking []) Config.params false l m hidle hch hdirty)
  have hfirst₀ : step s₀ = .next (seqEdge Config.params (newCycle s₀)) := step_idle rfl
  have hlen : 1 + n = 0 + edgesOf Config.params (writeOps Config.params x) := by
    rw [edgesOf_writeOps _ hdirty, Nat.zero_add, Nat.add_comm]
  obtain ⟨hmid, hops, t, ht, hseq, hpins, hcache, ⟨h1, h2, h3, h4, h5, h6, h7⟩, hinputs⟩ :=
    sequenceRuns_of_busy (s := s₀) rfl rfl (csHigh_suffix_writeOps _ x) hlen
  refine ⟨fun k hk => ?_, ?_, t, ?_, hseq, hpins, hcache, h1, h2, h3, h4, h5, h6, h7, hinputs⟩
  · rw [(run_of_step_eq hfirst hfirst₀ k).1]
    exact hmid (1 + k) (by omega)
  · rw [(run_of_step_eq hfirst hfirst₀ n).2, hops]
    rfl
  · rw [(run_of_step_eq hfirst hfirst₀ n).1, ht]

/-! ## What an edge performs -/

/-- An edge of the sequencer that performs an operation performs the first edge of what was left, and is done or leaves the
rest, with the wait those operations ask for. -/
theorem seqEdge_performs (p : Params) {s : State} {o : PinOp} (hquiet : s.pinOps = []) (h : o ∈ (seqEdge p s).pinOps) :
    ∃ x ops, s.seq = .busy x ops 0 ∧ (seqEdge p s).pinOps = (splitEdge ops).1 ∧
      ((seqEdge p s).seq = .idle ∨
        (seqEdge p s).seq = .busy x (splitEdge ops).2 (settleWait p (splitEdge ops).1)) := by
  obtain ⟨-, e⟩ | ⟨x, ops, n, -, e⟩ | ⟨x, ops, hseq, -, e⟩ | ⟨x, ops, hseq, -, e⟩ := seqEdge_cases p s <;> rw [e] at h ⊢
  · simp [hquiet] at h
  · simp [hquiet] at h
  · exact ⟨x, ops, hseq, rfl, .inr rfl⟩
  · exact ⟨x, ops, hseq, rfl, .inl rfl⟩

/-- The same for the timer programmer at an edge, which may begin a command there. -/
theorem timerEdge_performs (p : Params) (hold : Bool) (cmd : Option (BitVec 18)) {s : State} {o : PinOp}
    (hquiet : s.pinOps = []) (h : o ∈ (timerEdge p hold cmd s).pinOps) :
    ∃ x ops, (s.seq = .busy x ops 0 ∨ ops = writeOps p x) ∧ (timerEdge p hold cmd s).pinOps = (splitEdge ops).1 ∧
      ((timerEdge p hold cmd s).seq = .idle ∨
        (timerEdge p hold cmd s).seq = .busy x (splitEdge ops).2 (settleWait p (splitEdge ops).1)) := by
  have held {s' : State} (hquiet' : s'.pinOps = []) (h' : o ∈ (heldEdge p hold s').pinOps) :
      heldEdge p hold s' = seqEdge p s' := by
    obtain e | e := heldEdge_cases p hold s'
    · simp [e, hquiet'] at h'
    · exact e
  obtain ⟨-, e⟩ | ⟨-, e⟩ | ⟨w, ch, -, -, -, -, e⟩ := timerEdge_cases p hold cmd s <;> rw [e] at h ⊢
  · have hseqEdge := held hquiet h
    rw [hseqEdge] at h ⊢
    obtain ⟨x, ops, hseq, hnow⟩ := seqEdge_performs p hquiet h
    exact ⟨x, ops, .inl hseq, hnow⟩
  · simp [hquiet] at h
  · have hseqEdge := held (by exact hquiet) h
    rw [hseqEdge] at h ⊢
    obtain ⟨x, ops, hseq, hnow⟩ := seqEdge_performs p (by exact hquiet) h
    obtain ⟨rfl, rfl, -⟩ := Seq.busy.inj hseq
    exact ⟨_, _, .inr rfl, hnow⟩

/-- A step that is an edge and performs an operation performs the first edge of what was left of a command, the whole of it
if it begins there. -/
theorem step_performs {s t : State} {o : PinOp} (hedge : isEdge s) (ht : step s = .next t) (h : o ∈ t.pinOps) :
    ∃ x ops, (s.seq = .busy x ops 0 ∨ ops = writeOps Config.params x) ∧ t.pinOps = (splitEdge ops).1 ∧
      (t.seq = .idle ∨ t.seq = .busy x (splitEdge ops).2 (settleWait Config.params (splitEdge ops).1)) := by
  obtain hin | ⟨e, rest, hin⟩ | ⟨w, rest, hin, hbusy⟩ := hedge
  · rw [step, stepOf_idle _ _ hin] at ht
    obtain rfl := Host.Outcome.next.inj ht
    exact timerEdge_performs (s := newCycle s) _ _ _ rfl h
  · rw [step, stepOf_clock _ _ hin] at ht
    cases he : e.rst
    · obtain ⟨s₂, hs₂, ⟨-, -, hseq, hops⟩, -⟩ := clockEdge_for_timer he (s.taking rest)
      obtain rfl := Host.Outcome.next.inj (hs₂.symm.trans ht)
      rw [taking_seq] at hseq
      rw [taking_pinOps] at hops
      rw [← hseq]
      exact timerEdge_performs _ _ _ hops h
    · rw [clockEdge_of_rst _ _ he, runFrame_rst] at ht
      obtain rfl := Host.Outcome.next.inj ht
      cases h
  · rw [step, stepOf_call_held _ _ hin rfl hbusy] at ht
    obtain rfl := Host.Outcome.next.inj ht
    exact timerEdge_performs (s := newCycle s) _ _ _ rfl h

/-! ## A settle delay lasts -/

/-- While the sequencer has edges to let pass, edges that are not held use them up one by one, held ones use none, and
nothing is performed, whatever else is offered (R44, R190, R290). -/
theorem run_while_waiting {x : Pending} {ops : List PinOp} (es : List Edge) {w : Nat} {s : State}
    (hrst : ∀ e ∈ es, e.rst = false) (hcount : es.countP (fun e => !e.hold) ≤ w) (hin : s.inputs = es.map .clock)
    (hseq : s.seq = .busy x ops w) :
    opsOfRun es.length s = [] ∧ ∃ u, Host.Core.run Sys2Proof.core es.length s = .next u ∧ u.pins = s.pins ∧
      u.cache = s.cache ∧ u.busy = true := by
  induction es generalizing s w with
  | nil => exact ⟨rfl, s, rfl, rfl, rfl, (busy_eq_true_iff s).2 (by simp [hseq])⟩
  | cons e es ih =>
    obtain ⟨s₂, hs₂, ⟨hcache, hpins, hseq₂, hops⟩, hinputs⟩ :=
      clockEdge_for_timer (hrst e List.mem_cons_self) (s.taking (es.map .clock))
    have hbusy : s₂.seq = .busy x ops w := hseq₂.trans hseq
    have hstep : step s = .next (heldEdge Config.params e.hold s₂) := by
      rw [step, stepOf_clock _ _ hin, hs₂, timerEdge_of_busy _ _ _ (by simp [hbusy])]
    obtain ⟨w', t, ht, hw', htseq, htpins, htcache, htops, htinputs⟩ : ∃ w' t, heldEdge Config.params e.hold s₂ = t ∧
        es.countP (fun e => !e.hold) ≤ w' ∧ t.seq = .busy x ops w' ∧ t.pins = s₂.pins ∧ t.cache = s₂.cache ∧
        t.pinOps = s₂.pinOps ∧ t.inputs = s₂.inputs := by
      cases hh : e.hold
      · rw [List.countP_cons_of_pos (by simp [hh])] at hcount
        obtain ⟨w', rfl⟩ : ∃ w', w = w' + 1 := ⟨w - 1, by omega⟩
        exact ⟨w', { s₂ with seq := .busy x ops w' }, by simp only [heldEdge_false, seqEdge, hbusy], by omega, rfl, rfl,
          rfl, rfl, rfl⟩
      · rw [List.countP_cons_of_neg (by simp [hh])] at hcount
        exact ⟨w, s₂, heldEdge_true _ _, hcount, hbusy, rfl, rfl, rfl, rfl⟩
    rw [ht] at hstep
    obtain ⟨hnone, u, hu, hupins, hucache, hubusy⟩ := ih (fun e' he' => hrst e' (List.mem_cons_of_mem e he')) hw'
      (htinputs.trans hinputs) htseq
    rw [List.length_cons, opsOfRun_succ_of_step hstep, run_succ_of_step hstep, htops, hops, hnone]
    exact ⟨rfl, u, hu, hupins.trans (htpins.trans hpins), hucache.trans (htcache.trans hcache), hubusy⟩

/-! ## Address and data are set up before the strobe -/

/-- What may follow an operation: an address is followed by data, and a lowered strobe by its settle delay (R44). -/
def mayFollow (a b : PinOp) : Prop :=
  ((∃ x, a = .setAddr x) → ∃ v, b = .setData v) ∧ (a = .wrLow → b = .settle)

theorem isChain_writeOps (p : Params) (x : Pending) : List.IsChain mayFollow (writeOps p x) := by
  simp only [writeOps, controlOps, dataOps, busWrite]
  cases x.dl <;> cases x.dm <;> simp [mayFollow]

/-- An edge that lowers the strobe sets neither address nor data (R44). -/
theorem strobe_alone {ops : List PinOp} (hchain : List.IsChain mayFollow ops) (h : .wrLow ∈ (splitEdge ops).1) :
    (∀ a, .setAddr a ∉ (splitEdge ops).1) ∧ ∀ v, .setData v ∉ (splitEdge ops).1 := by
  induction ops with
  | nil => cases h
  | cons o ops ih =>
    cases ho : endsEdge o
    · rw [splitEdge_of_not_ends ho] at h ⊢
      cases ops with
      | nil =>
        obtain rfl : PinOp.wrLow = o := by simpa [splitEdge] using h
        simp [splitEdge]
      | cons b ops =>
        obtain ⟨⟨haddr, hstrobe⟩, hchain⟩ := List.isChain_cons_cons.1 hchain
        obtain rfl | h := List.mem_cons.1 h
        · obtain rfl := hstrobe rfl
          simp [splitEdge, endsEdge]
        · obtain ⟨hno, hno'⟩ := ih hchain h
          have hne : ∀ a, o ≠ .setAddr a := by
            rintro a rfl
            obtain ⟨v, rfl⟩ := haddr ⟨a, rfl⟩
            simp [splitEdge, endsEdge] at h
          have hne' : ∀ v, o ≠ .setData v := by
            rintro v rfl
            cases ho
          exact ⟨fun a => by simp [hno a, (hne a).symm], fun v => by simp [hno' v, (hne' v).symm]⟩
    · rw [splitEdge_of_ends ho] at h
      rw [← List.mem_singleton.1 h] at ho
      cases ho

/-! ## A held edge only delays -/

theorem seqEdge_sameTimer {s u : State} (p : Params) (h : sameTimer s u) : sameTimer (seqEdge p s) (seqEdge p u) := by
  have hperform := perform_sameTimer h
  obtain ⟨hcache, hpins, hseq, hops⟩ := h
  simp only [seqEdge, ← hseq, ← hcache]
  split
  · exact ⟨hcache, hpins, hseq, hops⟩
  · exact ⟨rfl, hpins, rfl, hops⟩
  · obtain ⟨gcache, gpins, -, gops⟩ := hperform (splitEdge _).1
    split_ifs
    · exact ⟨rfl, gpins, rfl, gops⟩
    · exact ⟨gcache, gpins, rfl, gops⟩

/-- Edges of which some are held lead where as many edges as are not held lead, by the same operations (R290). -/
theorem run_of_holds (holds : List Bool) {s u : State} (hs : s.inputs = holds.map (fun h => .clock (holdEdge h)))
    (hu : u.inputs = List.replicate (holds.count false) (.clock (holdEdge false))) (hcache : s.cache = u.cache)
    (hpins : s.pins = u.pins) (hseq : s.seq = u.seq) :
    ∃ t t' : State, Host.Core.run Sys2Proof.core holds.length s = .next t ∧
      Host.Core.run Sys2Proof.core (holds.count false) u = .next t' ∧
      t.seq = t'.seq ∧ t.pins = t'.pins ∧ t.cache = t'.cache ∧
      opsOfRun holds.length s = opsOfRun (holds.count false) u ∧ othersKept t s := by
  induction holds generalizing s u with
  | nil => exact ⟨s, u, rfl, rfl, hseq, hpins, hcache, rfl, othersKept_refl s⟩
  | cons hold holds ih =>
    have hstep := step_holdEdge hs
    have hinputs := heldEdge_inputs Config.params hold (s.taking (holds.map fun h => .clock (holdEdge h)))
    have hothers : othersKept (heldEdge Config.params hold (s.taking (holds.map fun h => .clock (holdEdge h)))) s :=
      heldEdge_othersKept _ _ _
    cases hold with
    | true =>
      rw [List.count_cons_of_ne (by decide)] at hu ⊢
      obtain ⟨t, t', ht, ht', htseq, htpins, htcache, hops, hkept⟩ := ih hinputs hu hcache hpins hseq
      refine ⟨t, t', (run_succ_of_step hstep _).trans ht, ht', htseq, htpins, htcache, ?_, hkept.trans hothers⟩
      rw [List.length_cons, opsOfRun_succ_of_step hstep, hops]
      rfl
    | false =>
      rw [List.count_cons_self] at hu ⊢
      rw [List.replicate_succ] at hu
      have hstep' := step_holdEdge hu
      obtain ⟨gcache, gpins, gseq, gops⟩ : sameTimer
          (heldEdge Config.params false (s.taking (holds.map fun h => .clock (holdEdge h))))
          (heldEdge Config.params false (u.taking (List.replicate (holds.count false) (.clock (holdEdge false))))) :=
        seqEdge_sameTimer _ ⟨hcache, hpins, hseq, rfl⟩
      obtain ⟨t, t', ht, ht', htseq, htpins, htcache, hops, hkept⟩ :=
        ih hinputs (heldEdge_inputs Config.params false (u.taking _)) gcache gpins gseq
      refine ⟨t, t', (run_succ_of_step hstep _).trans ht, (run_succ_of_step hstep' _).trans ht', htseq, htpins, htcache, ?_,
        hkept.trans hothers⟩
      rw [List.length_cons, opsOfRun_succ_of_step hstep, opsOfRun_succ_of_step hstep', gops, hops]

/-- Settles O60: an edge that begins a settle delay leaves `T_SETTLE` - 1 edges to let pass; one that lowers the strobe
performs the first edge of an end of a command's operations; and held edges are left out one by one. -/
theorem longerDelaysOnlyDelay : Obligations.LongerDelaysOnlyDelay := by
  refine ⟨fun s t hedge ht hsettle hbusy es hrst hcount => ?_, fun s t hedge horder ht hstrobe => ?_,
    fun holds s u hs hu => ?_⟩
  · obtain ⟨x, ops, -, hnow, hidle | hseq⟩ := step_performs hedge ht hsettle
    · exact absurd hidle hbusy
    · rw [hnow] at hsettle
      rw [settleWait_of_mem _ hsettle] at hseq
      exact run_while_waiting es hrst (Nat.le_sub_one_of_lt hcount) rfl hseq
  · obtain ⟨x, ops, hops, hnow, -⟩ := step_performs hedge ht hstrobe
    rw [hnow] at hstrobe ⊢
    have hend : ops <:+ writeOps Config.params x := by
      obtain hseq | rfl := hops
      · obtain ⟨-, -, hend, -⟩ := horder x ops 0 hseq
        exact hend
      · exact List.suffix_rfl
    exact strobe_alone ((isChain_writeOps _ x).suffix hend) hstrobe
  · subst hu
    exact run_of_holds holds hs rfl rfl rfl rfl

end Sys2Proof.Machine
